-- ==== Sys2Proof/Word.lean ====
section
/-! DEFINITION. The two widths of this core: the byte and the 16-bit word (00_scope R5, R7). -/

namespace Sys2Proof

/-- An 8-bit unsigned value (R7); arithmetic on it is mod 256 (R8). -/
abbrev Byte := BitVec 8

/-- A 16-bit unsigned value: PC and every address (R5, R7); arithmetic on it is mod 65536 (R8). -/
abbrev Word := BitVec 16

end Sys2Proof
end

