-- ==== Sys2Proof/Machine/Bytes.lean ====
section
/-! DEFINITION. Byte order, bit fields and address forming (00_scope R7, 20_memory R42, R46, R47). -/

namespace Sys2Proof

/-- `{h, l}`, the word `h * 256 + l` (R7). -/
def mkWord (h l : Byte) : Word := h ++ l

/-- `w[7:0]`. -/
def loByte (w : Word) : Byte := w.setWidth 8

/-- `w[15:8]`. -/
def hiByte (w : Word) : Byte := (w >>> 8).setWidth 8

/-- `sext_16(b)` (R7). -/
def sext16 (b : Byte) : Word := b.signExtend 16

/-- `zext_16(b)`: the zero-page address `{0x00, b}` (20_memory R47, 40_sequencer §3 `Z(a)`). -/
def zeroPage (b : Byte) : Word := mkWord 0 b

/-- The stack byte S addresses, `0x0100 | S` (20_memory R46). -/
def stackAddr (s : Byte) : Word := 0x0100#16 ||| s.setWidth 16

/-- The low byte of the index addition `addrLo + Ix`, `s[7:0]` of the 9-bit sum (40_sequencer R85). -/
def indexLow (lo ix : Byte) : Byte := lo + ix

/-- The carry of the index addition, `s[8]` of the 9-bit sum: the page crossing (R85, R56). -/
def indexCarry (lo ix : Byte) : Bool := decide (255 < lo.toNat + ix.toNat)

end Sys2Proof
end

