-- ==== Sys2Proof/Syntax.lean ====
section
/-! DEFINITION. The instructions: one constructor per opcode of the map (30_encoding R59, spec/opcode_table.json),
with its operand bytes (R54, R55). The opcode alone fixes the format; there is no register field, prefix or mode
bit (R54, R62). -/

namespace Sys2Proof

/-- The 77 mnemonics (30_encoding R59, R60). -/
inductive Mnemonic where
  | adc | alr | anc | and | ane | arr | asl | bcc | bcs | beq | bit
  | bmi | bne | bpl | brk | bvc | bvs | clc | cld | cli | clv | cmp
  | cpx | cpy | dcp | dec | dex | dey | eor | inc | inx | iny | isc
  | jam | jmp | jsr | las | lax | lda | ldx | ldy | lsr | lxa | nop
  | ora | pha | php | pla | plp | rla | rol | ror | rra | rti | rts
  | sax | sbc | sbx | sec | sed | sei | sha | shx | shy | slo | sre
  | sta | stx | sty | tas | tax | tay | tsx | txa | txs | tya | usbc
deriving DecidableEq, Repr

/-- The addressing modes (30_encoding R55). -/
inductive Mode where
  | imp | acc | imm | zp | zpx | zpy | abs | abx | aby | ind | izx | izy | rel
deriving DecidableEq, Repr

/-- An operand as it is assembled (30_encoding R56): the mode and the operand bytes. `pad` is BRK's padding
byte, which is read and discarded (45_control R163; log 13). -/
inductive Operand where
  | imp
  | acc
  | imm (imm : Byte)
  | zp (zp : Byte)
  | zpx (zp : Byte)
  | zpy (zp : Byte)
  | abs (addr : Word)
  | abx (addr : Word)
  | aby (addr : Word)
  | ind (ptr : Word)
  | izx (ptr : Byte)
  | izy (ptr : Byte)
  | rel (off : Byte)
  | pad (pad : Byte)
deriving DecidableEq, Repr

/-- The instructions, in the order of their first opcode. A mnemonic with several modes has one constructor for each,
named by the mode. Where the map gives one mnemonic and mode several opcodes (JAM, ANC and the unofficial NOPs),
their rows share a constructor that carries its opcode byte `op`; which bytes it may be is checked in WellFormed
(log 15). -/
inductive Instr where
  | brk (pad : Byte)
  | oraIzx (ptr : Byte)
  | jam (op : Byte)
  | sloIzx (ptr : Byte)
  | nopZp (op : Byte) (zp : Byte)
  | oraZp (zp : Byte)
  | aslZp (zp : Byte)
  | sloZp (zp : Byte)
  | php
  | oraImm (imm : Byte)
  | aslAcc
  | anc (op : Byte) (imm : Byte)
  | nopAbs (addr : Word)
  | oraAbs (addr : Word)
  | aslAbs (addr : Word)
  | sloAbs (addr : Word)
  | bpl (off : Byte)
  | oraIzy (ptr : Byte)
  | sloIzy (ptr : Byte)
  | nopZpx (op : Byte) (zp : Byte)
  | oraZpx (zp : Byte)
  | aslZpx (zp : Byte)
  | sloZpx (zp : Byte)
  | clc
  | oraAby (addr : Word)
  | nopImp (op : Byte)
  | sloAby (addr : Word)
  | nopAbx (op : Byte) (addr : Word)
  | oraAbx (addr : Word)
  | aslAbx (addr : Word)
  | sloAbx (addr : Word)
  | jsr (addr : Word)
  | andIzx (ptr : Byte)
  | rlaIzx (ptr : Byte)
  | bitZp (zp : Byte)
  | andZp (zp : Byte)
  | rolZp (zp : Byte)
  | rlaZp (zp : Byte)
  | plp
  | andImm (imm : Byte)
  | rolAcc
  | bitAbs (addr : Word)
  | andAbs (addr : Word)
  | rolAbs (addr : Word)
  | rlaAbs (addr : Word)
  | bmi (off : Byte)
  | andIzy (ptr : Byte)
  | rlaIzy (ptr : Byte)
  | andZpx (zp : Byte)
  | rolZpx (zp : Byte)
  | rlaZpx (zp : Byte)
  | sec
  | andAby (addr : Word)
  | rlaAby (addr : Word)
  | andAbx (addr : Word)
  | rolAbx (addr : Word)
  | rlaAbx (addr : Word)
  | rti
  | eorIzx (ptr : Byte)
  | sreIzx (ptr : Byte)
  | eorZp (zp : Byte)
  | lsrZp (zp : Byte)
  | sreZp (zp : Byte)
  | pha
  | eorImm (imm : Byte)
  | lsrAcc
  | alr (imm : Byte)
  | jmpAbs (addr : Word)
  | eorAbs (addr : Word)
  | lsrAbs (addr : Word)
  | sreAbs (addr : Word)
  | bvc (off : Byte)
  | eorIzy (ptr : Byte)
  | sreIzy (ptr : Byte)
  | eorZpx (zp : Byte)
  | lsrZpx (zp : Byte)
  | sreZpx (zp : Byte)
  | cli
  | eorAby (addr : Word)
  | sreAby (addr : Word)
  | eorAbx (addr : Word)
  | lsrAbx (addr : Word)
  | sreAbx (addr : Word)
  | rts
  | adcIzx (ptr : Byte)
  | rraIzx (ptr : Byte)
  | adcZp (zp : Byte)
  | rorZp (zp : Byte)
  | rraZp (zp : Byte)
  | pla
  | adcImm (imm : Byte)
  | rorAcc
  | arr (imm : Byte)
  | jmpInd (ptr : Word)
  | adcAbs (addr : Word)
  | rorAbs (addr : Word)
  | rraAbs (addr : Word)
  | bvs (off : Byte)
  | adcIzy (ptr : Byte)
  | rraIzy (ptr : Byte)
  | adcZpx (zp : Byte)
  | rorZpx (zp : Byte)
  | rraZpx (zp : Byte)
  | sei
  | adcAby (addr : Word)
  | rraAby (addr : Word)
  | adcAbx (addr : Word)
  | rorAbx (addr : Word)
  | rraAbx (addr : Word)
  | nopImm (op : Byte) (imm : Byte)
  | staIzx (ptr : Byte)
  | saxIzx (ptr : Byte)
  | styZp (zp : Byte)
  | staZp (zp : Byte)
  | stxZp (zp : Byte)
  | saxZp (zp : Byte)
  | dey
  | txa
  | ane (imm : Byte)
  | styAbs (addr : Word)
  | staAbs (addr : Word)
  | stxAbs (addr : Word)
  | saxAbs (addr : Word)
  | bcc (off : Byte)
  | staIzy (ptr : Byte)
  | shaIzy (ptr : Byte)
  | styZpx (zp : Byte)
  | staZpx (zp : Byte)
  | stxZpy (zp : Byte)
  | saxZpy (zp : Byte)
  | tya
  | staAby (addr : Word)
  | txs
  | tas (addr : Word)
  | shy (addr : Word)
  | staAbx (addr : Word)
  | shx (addr : Word)
  | shaAby (addr : Word)
  | ldyImm (imm : Byte)
  | ldaIzx (ptr : Byte)
  | ldxImm (imm : Byte)
  | laxIzx (ptr : Byte)
  | ldyZp (zp : Byte)
  | ldaZp (zp : Byte)
  | ldxZp (zp : Byte)
  | laxZp (zp : Byte)
  | tay
  | ldaImm (imm : Byte)
  | tax
  | lxa (imm : Byte)
  | ldyAbs (addr : Word)
  | ldaAbs (addr : Word)
  | ldxAbs (addr : Word)
  | laxAbs (addr : Word)
  | bcs (off : Byte)
  | ldaIzy (ptr : Byte)
  | laxIzy (ptr : Byte)
  | ldyZpx (zp : Byte)
  | ldaZpx (zp : Byte)
  | ldxZpy (zp : Byte)
  | laxZpy (zp : Byte)
  | clv
  | ldaAby (addr : Word)
  | tsx
  | las (addr : Word)
  | ldyAbx (addr : Word)
  | ldaAbx (addr : Word)
  | ldxAby (addr : Word)
  | laxAby (addr : Word)
  | cpyImm (imm : Byte)
  | cmpIzx (ptr : Byte)
  | dcpIzx (ptr : Byte)
  | cpyZp (zp : Byte)
  | cmpZp (zp : Byte)
  | decZp (zp : Byte)
  | dcpZp (zp : Byte)
  | iny
  | cmpImm (imm : Byte)
  | dex
  | sbx (imm : Byte)
  | cpyAbs (addr : Word)
  | cmpAbs (addr : Word)
  | decAbs (addr : Word)
  | dcpAbs (addr : Word)
  | bne (off : Byte)
  | cmpIzy (ptr : Byte)
  | dcpIzy (ptr : Byte)
  | cmpZpx (zp : Byte)
  | decZpx (zp : Byte)
  | dcpZpx (zp : Byte)
  | cld
  | cmpAby (addr : Word)
  | dcpAby (addr : Word)
  | cmpAbx (addr : Word)
  | decAbx (addr : Word)
  | dcpAbx (addr : Word)
  | cpxImm (imm : Byte)
  | sbcIzx (ptr : Byte)
  | iscIzx (ptr : Byte)
  | cpxZp (zp : Byte)
  | sbcZp (zp : Byte)
  | incZp (zp : Byte)
  | iscZp (zp : Byte)
  | inx
  | sbcImm (imm : Byte)
  | nop
  | usbc (imm : Byte)
  | cpxAbs (addr : Word)
  | sbcAbs (addr : Word)
  | incAbs (addr : Word)
  | iscAbs (addr : Word)
  | beq (off : Byte)
  | sbcIzy (ptr : Byte)
  | iscIzy (ptr : Byte)
  | sbcZpx (zp : Byte)
  | incZpx (zp : Byte)
  | iscZpx (zp : Byte)
  | sed
  | sbcAby (addr : Word)
  | iscAby (addr : Word)
  | sbcAbx (addr : Word)
  | incAbx (addr : Word)
  | iscAbx (addr : Word)
deriving DecidableEq, Repr

end Sys2Proof
end

