-- ==== Sys2Proof/Decode.lean ====
section
/-! DEFINITION. The decoder, written from the opcode map R59 row by row, and after it the encoder, written from
the "Encoding" lines of the instruction rules R109 to R190. -/

namespace Sys2Proof

/-! ## The opcode map (30_encoding R59)

One function a row of the table: the high nibble names the row, `col` is the low nibble, `b` is operand byte 1 and
`w` the word `b1 | (b2 << 8)` (R56). -/

/-- Row 0x of R59. -/
def mapRow0 (col : Nat) (b : Byte) (w : Word) : Instr :=
  match col with
  | 0 => .brk b
  | 1 => .oraIzx b
  | 2 => .jam 0x02
  | 3 => .sloIzx b
  | 4 => .nopZp 0x04 b
  | 5 => .oraZp b
  | 6 => .aslZp b
  | 7 => .sloZp b
  | 8 => .php
  | 9 => .oraImm b
  | 10 => .aslAcc
  | 11 => .anc 0x0B b
  | 12 => .nopAbs w
  | 13 => .oraAbs w
  | 14 => .aslAbs w
  | _ => .sloAbs w

/-- Row 1x of R59. -/
def mapRow1 (col : Nat) (b : Byte) (w : Word) : Instr :=
  match col with
  | 0 => .bpl b
  | 1 => .oraIzy b
  | 2 => .jam 0x12
  | 3 => .sloIzy b
  | 4 => .nopZpx 0x14 b
  | 5 => .oraZpx b
  | 6 => .aslZpx b
  | 7 => .sloZpx b
  | 8 => .clc
  | 9 => .oraAby w
  | 10 => .nopImp 0x1A
  | 11 => .sloAby w
  | 12 => .nopAbx 0x1C w
  | 13 => .oraAbx w
  | 14 => .aslAbx w
  | _ => .sloAbx w

/-- Row 2x of R59. -/
def mapRow2 (col : Nat) (b : Byte) (w : Word) : Instr :=
  match col with
  | 0 => .jsr w
  | 1 => .andIzx b
  | 2 => .jam 0x22
  | 3 => .rlaIzx b
  | 4 => .bitZp b
  | 5 => .andZp b
  | 6 => .rolZp b
  | 7 => .rlaZp b
  | 8 => .plp
  | 9 => .andImm b
  | 10 => .rolAcc
  | 11 => .anc 0x2B b
  | 12 => .bitAbs w
  | 13 => .andAbs w
  | 14 => .rolAbs w
  | _ => .rlaAbs w

/-- Row 3x of R59. -/
def mapRow3 (col : Nat) (b : Byte) (w : Word) : Instr :=
  match col with
  | 0 => .bmi b
  | 1 => .andIzy b
  | 2 => .jam 0x32
  | 3 => .rlaIzy b
  | 4 => .nopZpx 0x34 b
  | 5 => .andZpx b
  | 6 => .rolZpx b
  | 7 => .rlaZpx b
  | 8 => .sec
  | 9 => .andAby w
  | 10 => .nopImp 0x3A
  | 11 => .rlaAby w
  | 12 => .nopAbx 0x3C w
  | 13 => .andAbx w
  | 14 => .rolAbx w
  | _ => .rlaAbx w

/-- Row 4x of R59. -/
def mapRow4 (col : Nat) (b : Byte) (w : Word) : Instr :=
  match col with
  | 0 => .rti
  | 1 => .eorIzx b
  | 2 => .jam 0x42
  | 3 => .sreIzx b
  | 4 => .nopZp 0x44 b
  | 5 => .eorZp b
  | 6 => .lsrZp b
  | 7 => .sreZp b
  | 8 => .pha
  | 9 => .eorImm b
  | 10 => .lsrAcc
  | 11 => .alr b
  | 12 => .jmpAbs w
  | 13 => .eorAbs w
  | 14 => .lsrAbs w
  | _ => .sreAbs w

/-- Row 5x of R59. -/
def mapRow5 (col : Nat) (b : Byte) (w : Word) : Instr :=
  match col with
  | 0 => .bvc b
  | 1 => .eorIzy b
  | 2 => .jam 0x52
  | 3 => .sreIzy b
  | 4 => .nopZpx 0x54 b
  | 5 => .eorZpx b
  | 6 => .lsrZpx b
  | 7 => .sreZpx b
  | 8 => .cli
  | 9 => .eorAby w
  | 10 => .nopImp 0x5A
  | 11 => .sreAby w
  | 12 => .nopAbx 0x5C w
  | 13 => .eorAbx w
  | 14 => .lsrAbx w
  | _ => .sreAbx w

/-- Row 6x of R59. -/
def mapRow6 (col : Nat) (b : Byte) (w : Word) : Instr :=
  match col with
  | 0 => .rts
  | 1 => .adcIzx b
  | 2 => .jam 0x62
  | 3 => .rraIzx b
  | 4 => .nopZp 0x64 b
  | 5 => .adcZp b
  | 6 => .rorZp b
  | 7 => .rraZp b
  | 8 => .pla
  | 9 => .adcImm b
  | 10 => .rorAcc
  | 11 => .arr b
  | 12 => .jmpInd w
  | 13 => .adcAbs w
  | 14 => .rorAbs w
  | _ => .rraAbs w

/-- Row 7x of R59. -/
def mapRow7 (col : Nat) (b : Byte) (w : Word) : Instr :=
  match col with
  | 0 => .bvs b
  | 1 => .adcIzy b
  | 2 => .jam 0x72
  | 3 => .rraIzy b
  | 4 => .nopZpx 0x74 b
  | 5 => .adcZpx b
  | 6 => .rorZpx b
  | 7 => .rraZpx b
  | 8 => .sei
  | 9 => .adcAby w
  | 10 => .nopImp 0x7A
  | 11 => .rraAby w
  | 12 => .nopAbx 0x7C w
  | 13 => .adcAbx w
  | 14 => .rorAbx w
  | _ => .rraAbx w

/-- Row 8x of R59. -/
def mapRow8 (col : Nat) (b : Byte) (w : Word) : Instr :=
  match col with
  | 0 => .nopImm 0x80 b
  | 1 => .staIzx b
  | 2 => .nopImm 0x82 b
  | 3 => .saxIzx b
  | 4 => .styZp b
  | 5 => .staZp b
  | 6 => .stxZp b
  | 7 => .saxZp b
  | 8 => .dey
  | 9 => .nopImm 0x89 b
  | 10 => .txa
  | 11 => .ane b
  | 12 => .styAbs w
  | 13 => .staAbs w
  | 14 => .stxAbs w
  | _ => .saxAbs w

/-- Row 9x of R59. -/
def mapRow9 (col : Nat) (b : Byte) (w : Word) : Instr :=
  match col with
  | 0 => .bcc b
  | 1 => .staIzy b
  | 2 => .jam 0x92
  | 3 => .shaIzy b
  | 4 => .styZpx b
  | 5 => .staZpx b
  | 6 => .stxZpy b
  | 7 => .saxZpy b
  | 8 => .tya
  | 9 => .staAby w
  | 10 => .txs
  | 11 => .tas w
  | 12 => .shy w
  | 13 => .staAbx w
  | 14 => .shx w
  | _ => .shaAby w

/-- Row Ax of R59. -/
def mapRowA (col : Nat) (b : Byte) (w : Word) : Instr :=
  match col with
  | 0 => .ldyImm b
  | 1 => .ldaIzx b
  | 2 => .ldxImm b
  | 3 => .laxIzx b
  | 4 => .ldyZp b
  | 5 => .ldaZp b
  | 6 => .ldxZp b
  | 7 => .laxZp b
  | 8 => .tay
  | 9 => .ldaImm b
  | 10 => .tax
  | 11 => .lxa b
  | 12 => .ldyAbs w
  | 13 => .ldaAbs w
  | 14 => .ldxAbs w
  | _ => .laxAbs w

/-- Row Bx of R59. -/
def mapRowB (col : Nat) (b : Byte) (w : Word) : Instr :=
  match col with
  | 0 => .bcs b
  | 1 => .ldaIzy b
  | 2 => .jam 0xB2
  | 3 => .laxIzy b
  | 4 => .ldyZpx b
  | 5 => .ldaZpx b
  | 6 => .ldxZpy b
  | 7 => .laxZpy b
  | 8 => .clv
  | 9 => .ldaAby w
  | 10 => .tsx
  | 11 => .las w
  | 12 => .ldyAbx w
  | 13 => .ldaAbx w
  | 14 => .ldxAby w
  | _ => .laxAby w

/-- Row Cx of R59. -/
def mapRowC (col : Nat) (b : Byte) (w : Word) : Instr :=
  match col with
  | 0 => .cpyImm b
  | 1 => .cmpIzx b
  | 2 => .nopImm 0xC2 b
  | 3 => .dcpIzx b
  | 4 => .cpyZp b
  | 5 => .cmpZp b
  | 6 => .decZp b
  | 7 => .dcpZp b
  | 8 => .iny
  | 9 => .cmpImm b
  | 10 => .dex
  | 11 => .sbx b
  | 12 => .cpyAbs w
  | 13 => .cmpAbs w
  | 14 => .decAbs w
  | _ => .dcpAbs w

/-- Row Dx of R59. -/
def mapRowD (col : Nat) (b : Byte) (w : Word) : Instr :=
  match col with
  | 0 => .bne b
  | 1 => .cmpIzy b
  | 2 => .jam 0xD2
  | 3 => .dcpIzy b
  | 4 => .nopZpx 0xD4 b
  | 5 => .cmpZpx b
  | 6 => .decZpx b
  | 7 => .dcpZpx b
  | 8 => .cld
  | 9 => .cmpAby w
  | 10 => .nopImp 0xDA
  | 11 => .dcpAby w
  | 12 => .nopAbx 0xDC w
  | 13 => .cmpAbx w
  | 14 => .decAbx w
  | _ => .dcpAbx w

/-- Row Ex of R59. -/
def mapRowE (col : Nat) (b : Byte) (w : Word) : Instr :=
  match col with
  | 0 => .cpxImm b
  | 1 => .sbcIzx b
  | 2 => .nopImm 0xE2 b
  | 3 => .iscIzx b
  | 4 => .cpxZp b
  | 5 => .sbcZp b
  | 6 => .incZp b
  | 7 => .iscZp b
  | 8 => .inx
  | 9 => .sbcImm b
  | 10 => .nop
  | 11 => .usbc b
  | 12 => .cpxAbs w
  | 13 => .sbcAbs w
  | 14 => .incAbs w
  | _ => .iscAbs w

/-- Row Fx of R59. -/
def mapRowF (col : Nat) (b : Byte) (w : Word) : Instr :=
  match col with
  | 0 => .beq b
  | 1 => .sbcIzy b
  | 2 => .jam 0xF2
  | 3 => .iscIzy b
  | 4 => .nopZpx 0xF4 b
  | 5 => .sbcZpx b
  | 6 => .incZpx b
  | 7 => .iscZpx b
  | 8 => .sed
  | 9 => .sbcAby w
  | 10 => .nopImp 0xFA
  | 11 => .iscAby w
  | 12 => .nopAbx 0xFC w
  | 13 => .sbcAbx w
  | 14 => .incAbx w
  | _ => .iscAbx w

/-- The instruction of an opcode byte and two operand bytes: the map is total, no opcode is reserved or illegal
(30_encoding R61). Operand bytes beyond the instruction's length are not looked at. -/
def ofBytes (op b1 b2 : Byte) : Instr :=
  let b := b1
  let w := mkWord b2 b1
  let col := op.toNat % 16
  match op.toNat / 16 with
  | 0x0 => mapRow0 col b w
  | 0x1 => mapRow1 col b w
  | 0x2 => mapRow2 col b w
  | 0x3 => mapRow3 col b w
  | 0x4 => mapRow4 col b w
  | 0x5 => mapRow5 col b w
  | 0x6 => mapRow6 col b w
  | 0x7 => mapRow7 col b w
  | 0x8 => mapRow8 col b w
  | 0x9 => mapRow9 col b w
  | 0xA => mapRowA col b w
  | 0xB => mapRowB col b w
  | 0xC => mapRowC col b w
  | 0xD => mapRowD col b w
  | 0xE => mapRowE col b w
  | _ => mapRowF col b w

/-- The mnemonic of an instruction. -/
def Instr.mnemonic : Instr → Mnemonic
  | .brk _ => .brk
  | .oraIzx _ => .ora
  | .jam _ => .jam
  | .sloIzx _ => .slo
  | .nopZp _ _ => .nop
  | .oraZp _ => .ora
  | .aslZp _ => .asl
  | .sloZp _ => .slo
  | .php => .php
  | .oraImm _ => .ora
  | .aslAcc => .asl
  | .anc _ _ => .anc
  | .nopAbs _ => .nop
  | .oraAbs _ => .ora
  | .aslAbs _ => .asl
  | .sloAbs _ => .slo
  | .bpl _ => .bpl
  | .oraIzy _ => .ora
  | .sloIzy _ => .slo
  | .nopZpx _ _ => .nop
  | .oraZpx _ => .ora
  | .aslZpx _ => .asl
  | .sloZpx _ => .slo
  | .clc => .clc
  | .oraAby _ => .ora
  | .nopImp _ => .nop
  | .sloAby _ => .slo
  | .nopAbx _ _ => .nop
  | .oraAbx _ => .ora
  | .aslAbx _ => .asl
  | .sloAbx _ => .slo
  | .jsr _ => .jsr
  | .andIzx _ => .and
  | .rlaIzx _ => .rla
  | .bitZp _ => .bit
  | .andZp _ => .and
  | .rolZp _ => .rol
  | .rlaZp _ => .rla
  | .plp => .plp
  | .andImm _ => .and
  | .rolAcc => .rol
  | .bitAbs _ => .bit
  | .andAbs _ => .and
  | .rolAbs _ => .rol
  | .rlaAbs _ => .rla
  | .bmi _ => .bmi
  | .andIzy _ => .and
  | .rlaIzy _ => .rla
  | .andZpx _ => .and
  | .rolZpx _ => .rol
  | .rlaZpx _ => .rla
  | .sec => .sec
  | .andAby _ => .and
  | .rlaAby _ => .rla
  | .andAbx _ => .and
  | .rolAbx _ => .rol
  | .rlaAbx _ => .rla
  | .rti => .rti
  | .eorIzx _ => .eor
  | .sreIzx _ => .sre
  | .eorZp _ => .eor
  | .lsrZp _ => .lsr
  | .sreZp _ => .sre
  | .pha => .pha
  | .eorImm _ => .eor
  | .lsrAcc => .lsr
  | .alr _ => .alr
  | .jmpAbs _ => .jmp
  | .eorAbs _ => .eor
  | .lsrAbs _ => .lsr
  | .sreAbs _ => .sre
  | .bvc _ => .bvc
  | .eorIzy _ => .eor
  | .sreIzy _ => .sre
  | .eorZpx _ => .eor
  | .lsrZpx _ => .lsr
  | .sreZpx _ => .sre
  | .cli => .cli
  | .eorAby _ => .eor
  | .sreAby _ => .sre
  | .eorAbx _ => .eor
  | .lsrAbx _ => .lsr
  | .sreAbx _ => .sre
  | .rts => .rts
  | .adcIzx _ => .adc
  | .rraIzx _ => .rra
  | .adcZp _ => .adc
  | .rorZp _ => .ror
  | .rraZp _ => .rra
  | .pla => .pla
  | .adcImm _ => .adc
  | .rorAcc => .ror
  | .arr _ => .arr
  | .jmpInd _ => .jmp
  | .adcAbs _ => .adc
  | .rorAbs _ => .ror
  | .rraAbs _ => .rra
  | .bvs _ => .bvs
  | .adcIzy _ => .adc
  | .rraIzy _ => .rra
  | .adcZpx _ => .adc
  | .rorZpx _ => .ror
  | .rraZpx _ => .rra
  | .sei => .sei
  | .adcAby _ => .adc
  | .rraAby _ => .rra
  | .adcAbx _ => .adc
  | .rorAbx _ => .ror
  | .rraAbx _ => .rra
  | .nopImm _ _ => .nop
  | .staIzx _ => .sta
  | .saxIzx _ => .sax
  | .styZp _ => .sty
  | .staZp _ => .sta
  | .stxZp _ => .stx
  | .saxZp _ => .sax
  | .dey => .dey
  | .txa => .txa
  | .ane _ => .ane
  | .styAbs _ => .sty
  | .staAbs _ => .sta
  | .stxAbs _ => .stx
  | .saxAbs _ => .sax
  | .bcc _ => .bcc
  | .staIzy _ => .sta
  | .shaIzy _ => .sha
  | .styZpx _ => .sty
  | .staZpx _ => .sta
  | .stxZpy _ => .stx
  | .saxZpy _ => .sax
  | .tya => .tya
  | .staAby _ => .sta
  | .txs => .txs
  | .tas _ => .tas
  | .shy _ => .shy
  | .staAbx _ => .sta
  | .shx _ => .shx
  | .shaAby _ => .sha
  | .ldyImm _ => .ldy
  | .ldaIzx _ => .lda
  | .ldxImm _ => .ldx
  | .laxIzx _ => .lax
  | .ldyZp _ => .ldy
  | .ldaZp _ => .lda
  | .ldxZp _ => .ldx
  | .laxZp _ => .lax
  | .tay => .tay
  | .ldaImm _ => .lda
  | .tax => .tax
  | .lxa _ => .lxa
  | .ldyAbs _ => .ldy
  | .ldaAbs _ => .lda
  | .ldxAbs _ => .ldx
  | .laxAbs _ => .lax
  | .bcs _ => .bcs
  | .ldaIzy _ => .lda
  | .laxIzy _ => .lax
  | .ldyZpx _ => .ldy
  | .ldaZpx _ => .lda
  | .ldxZpy _ => .ldx
  | .laxZpy _ => .lax
  | .clv => .clv
  | .ldaAby _ => .lda
  | .tsx => .tsx
  | .las _ => .las
  | .ldyAbx _ => .ldy
  | .ldaAbx _ => .lda
  | .ldxAby _ => .ldx
  | .laxAby _ => .lax
  | .cpyImm _ => .cpy
  | .cmpIzx _ => .cmp
  | .dcpIzx _ => .dcp
  | .cpyZp _ => .cpy
  | .cmpZp _ => .cmp
  | .decZp _ => .dec
  | .dcpZp _ => .dcp
  | .iny => .iny
  | .cmpImm _ => .cmp
  | .dex => .dex
  | .sbx _ => .sbx
  | .cpyAbs _ => .cpy
  | .cmpAbs _ => .cmp
  | .decAbs _ => .dec
  | .dcpAbs _ => .dcp
  | .bne _ => .bne
  | .cmpIzy _ => .cmp
  | .dcpIzy _ => .dcp
  | .cmpZpx _ => .cmp
  | .decZpx _ => .dec
  | .dcpZpx _ => .dcp
  | .cld => .cld
  | .cmpAby _ => .cmp
  | .dcpAby _ => .dcp
  | .cmpAbx _ => .cmp
  | .decAbx _ => .dec
  | .dcpAbx _ => .dcp
  | .cpxImm _ => .cpx
  | .sbcIzx _ => .sbc
  | .iscIzx _ => .isc
  | .cpxZp _ => .cpx
  | .sbcZp _ => .sbc
  | .incZp _ => .inc
  | .iscZp _ => .isc
  | .inx => .inx
  | .sbcImm _ => .sbc
  | .nop => .nop
  | .usbc _ => .usbc
  | .cpxAbs _ => .cpx
  | .sbcAbs _ => .sbc
  | .incAbs _ => .inc
  | .iscAbs _ => .isc
  | .beq _ => .beq
  | .sbcIzy _ => .sbc
  | .iscIzy _ => .isc
  | .sbcZpx _ => .sbc
  | .incZpx _ => .inc
  | .iscZpx _ => .isc
  | .sed => .sed
  | .sbcAby _ => .sbc
  | .iscAby _ => .isc
  | .sbcAbx _ => .sbc
  | .incAbx _ => .inc
  | .iscAbx _ => .isc

/-- The operand of an instruction (30_encoding R55, R56). -/
def Instr.operand : Instr → Operand
  | .brk x => .pad x
  | .oraIzx x => .izx x
  | .jam _ => .imp
  | .sloIzx x => .izx x
  | .nopZp _ x => .zp x
  | .oraZp x => .zp x
  | .aslZp x => .zp x
  | .sloZp x => .zp x
  | .php => .imp
  | .oraImm x => .imm x
  | .aslAcc => .acc
  | .anc _ x => .imm x
  | .nopAbs x => .abs x
  | .oraAbs x => .abs x
  | .aslAbs x => .abs x
  | .sloAbs x => .abs x
  | .bpl x => .rel x
  | .oraIzy x => .izy x
  | .sloIzy x => .izy x
  | .nopZpx _ x => .zpx x
  | .oraZpx x => .zpx x
  | .aslZpx x => .zpx x
  | .sloZpx x => .zpx x
  | .clc => .imp
  | .oraAby x => .aby x
  | .nopImp _ => .imp
  | .sloAby x => .aby x
  | .nopAbx _ x => .abx x
  | .oraAbx x => .abx x
  | .aslAbx x => .abx x
  | .sloAbx x => .abx x
  | .jsr x => .abs x
  | .andIzx x => .izx x
  | .rlaIzx x => .izx x
  | .bitZp x => .zp x
  | .andZp x => .zp x
  | .rolZp x => .zp x
  | .rlaZp x => .zp x
  | .plp => .imp
  | .andImm x => .imm x
  | .rolAcc => .acc
  | .bitAbs x => .abs x
  | .andAbs x => .abs x
  | .rolAbs x => .abs x
  | .rlaAbs x => .abs x
  | .bmi x => .rel x
  | .andIzy x => .izy x
  | .rlaIzy x => .izy x
  | .andZpx x => .zpx x
  | .rolZpx x => .zpx x
  | .rlaZpx x => .zpx x
  | .sec => .imp
  | .andAby x => .aby x
  | .rlaAby x => .aby x
  | .andAbx x => .abx x
  | .rolAbx x => .abx x
  | .rlaAbx x => .abx x
  | .rti => .imp
  | .eorIzx x => .izx x
  | .sreIzx x => .izx x
  | .eorZp x => .zp x
  | .lsrZp x => .zp x
  | .sreZp x => .zp x
  | .pha => .imp
  | .eorImm x => .imm x
  | .lsrAcc => .acc
  | .alr x => .imm x
  | .jmpAbs x => .abs x
  | .eorAbs x => .abs x
  | .lsrAbs x => .abs x
  | .sreAbs x => .abs x
  | .bvc x => .rel x
  | .eorIzy x => .izy x
  | .sreIzy x => .izy x
  | .eorZpx x => .zpx x
  | .lsrZpx x => .zpx x
  | .sreZpx x => .zpx x
  | .cli => .imp
  | .eorAby x => .aby x
  | .sreAby x => .aby x
  | .eorAbx x => .abx x
  | .lsrAbx x => .abx x
  | .sreAbx x => .abx x
  | .rts => .imp
  | .adcIzx x => .izx x
  | .rraIzx x => .izx x
  | .adcZp x => .zp x
  | .rorZp x => .zp x
  | .rraZp x => .zp x
  | .pla => .imp
  | .adcImm x => .imm x
  | .rorAcc => .acc
  | .arr x => .imm x
  | .jmpInd x => .ind x
  | .adcAbs x => .abs x
  | .rorAbs x => .abs x
  | .rraAbs x => .abs x
  | .bvs x => .rel x
  | .adcIzy x => .izy x
  | .rraIzy x => .izy x
  | .adcZpx x => .zpx x
  | .rorZpx x => .zpx x
  | .rraZpx x => .zpx x
  | .sei => .imp
  | .adcAby x => .aby x
  | .rraAby x => .aby x
  | .adcAbx x => .abx x
  | .rorAbx x => .abx x
  | .rraAbx x => .abx x
  | .nopImm _ x => .imm x
  | .staIzx x => .izx x
  | .saxIzx x => .izx x
  | .styZp x => .zp x
  | .staZp x => .zp x
  | .stxZp x => .zp x
  | .saxZp x => .zp x
  | .dey => .imp
  | .txa => .imp
  | .ane x => .imm x
  | .styAbs x => .abs x
  | .staAbs x => .abs x
  | .stxAbs x => .abs x
  | .saxAbs x => .abs x
  | .bcc x => .rel x
  | .staIzy x => .izy x
  | .shaIzy x => .izy x
  | .styZpx x => .zpx x
  | .staZpx x => .zpx x
  | .stxZpy x => .zpy x
  | .saxZpy x => .zpy x
  | .tya => .imp
  | .staAby x => .aby x
  | .txs => .imp
  | .tas x => .aby x
  | .shy x => .abx x
  | .staAbx x => .abx x
  | .shx x => .aby x
  | .shaAby x => .aby x
  | .ldyImm x => .imm x
  | .ldaIzx x => .izx x
  | .ldxImm x => .imm x
  | .laxIzx x => .izx x
  | .ldyZp x => .zp x
  | .ldaZp x => .zp x
  | .ldxZp x => .zp x
  | .laxZp x => .zp x
  | .tay => .imp
  | .ldaImm x => .imm x
  | .tax => .imp
  | .lxa x => .imm x
  | .ldyAbs x => .abs x
  | .ldaAbs x => .abs x
  | .ldxAbs x => .abs x
  | .laxAbs x => .abs x
  | .bcs x => .rel x
  | .ldaIzy x => .izy x
  | .laxIzy x => .izy x
  | .ldyZpx x => .zpx x
  | .ldaZpx x => .zpx x
  | .ldxZpy x => .zpy x
  | .laxZpy x => .zpy x
  | .clv => .imp
  | .ldaAby x => .aby x
  | .tsx => .imp
  | .las x => .aby x
  | .ldyAbx x => .abx x
  | .ldaAbx x => .abx x
  | .ldxAby x => .aby x
  | .laxAby x => .aby x
  | .cpyImm x => .imm x
  | .cmpIzx x => .izx x
  | .dcpIzx x => .izx x
  | .cpyZp x => .zp x
  | .cmpZp x => .zp x
  | .decZp x => .zp x
  | .dcpZp x => .zp x
  | .iny => .imp
  | .cmpImm x => .imm x
  | .dex => .imp
  | .sbx x => .imm x
  | .cpyAbs x => .abs x
  | .cmpAbs x => .abs x
  | .decAbs x => .abs x
  | .dcpAbs x => .abs x
  | .bne x => .rel x
  | .cmpIzy x => .izy x
  | .dcpIzy x => .izy x
  | .cmpZpx x => .zpx x
  | .decZpx x => .zpx x
  | .dcpZpx x => .zpx x
  | .cld => .imp
  | .cmpAby x => .aby x
  | .dcpAby x => .aby x
  | .cmpAbx x => .abx x
  | .decAbx x => .abx x
  | .dcpAbx x => .abx x
  | .cpxImm x => .imm x
  | .sbcIzx x => .izx x
  | .iscIzx x => .izx x
  | .cpxZp x => .zp x
  | .sbcZp x => .zp x
  | .incZp x => .zp x
  | .iscZp x => .zp x
  | .inx => .imp
  | .sbcImm x => .imm x
  | .nop => .imp
  | .usbc x => .imm x
  | .cpxAbs x => .abs x
  | .sbcAbs x => .abs x
  | .incAbs x => .abs x
  | .iscAbs x => .abs x
  | .beq x => .rel x
  | .sbcIzy x => .izy x
  | .iscIzy x => .izy x
  | .sbcZpx x => .zpx x
  | .incZpx x => .zpx x
  | .iscZpx x => .zpx x
  | .sed => .imp
  | .sbcAby x => .aby x
  | .iscAby x => .aby x
  | .sbcAbx x => .abx x
  | .incAbx x => .abx x
  | .iscAbx x => .abx x

/-- The addressing mode of an operand. -/
def Operand.mode : Operand → Mode
  | .imp => .imp
  | .acc => .acc
  | .imm _ => .imm
  | .zp _ => .zp
  | .zpx _ => .zpx
  | .zpy _ => .zpy
  | .abs _ => .abs
  | .abx _ => .abx
  | .aby _ => .aby
  | .ind _ => .ind
  | .izx _ => .izx
  | .izy _ => .izy
  | .rel _ => .rel
  | .pad _ => .imp

/-- The operand bytes in instruction order: a word is stored low byte first (30_encoding R54 format F3, 20_memory
R42). -/
def Operand.bytes : Operand → List Byte
  | .imp => []
  | .acc => []
  | .imm b => [b]
  | .zp b => [b]
  | .zpx b => [b]
  | .zpy b => [b]
  | .abs w => [loByte w, hiByte w]
  | .abx w => [loByte w, hiByte w]
  | .aby w => [loByte w, hiByte w]
  | .ind w => [loByte w, hiByte w]
  | .izx b => [b]
  | .izy b => [b]
  | .rel b => [b]
  | .pad b => [b]

/-- The number of bytes of an instruction, the opcode among them: its PC advance by fetches (40_sequencer R106). -/
def Instr.length (i : Instr) : Nat := 1 + i.operand.bytes.length

/-- Why bytes do not decode. No opcode is refused (R61); only bytes that end too early are. -/
inductive DecodeError where
  /-- No byte is given. -/
  | noOpcode
  /-- The bytes end before the instruction's last operand byte. -/
  | truncated
deriving DecidableEq, Repr

/-- The instruction at the head of a list of bytes, and the bytes after it. The opcode byte alone tells the length
(30_encoding R62). -/
def decode : List Byte → Except DecodeError (Instr × List Byte)
  | [] => .error .noOpcode
  | op :: rest =>
    match (ofBytes op 0 0).length, rest with
    | 1, rest => .ok (ofBytes op 0 0, rest)
    | 2, b1 :: rest => .ok (ofBytes op b1 0, rest)
    | 3, b1 :: b2 :: rest => .ok (ofBytes op b1 b2, rest)
    | _, _ => .error .truncated

/-- Byte `k` of a number whose bit 0 is the least significant bit of the first byte. -/
def tableByte (w k : Nat) : Byte := BitVec.ofNat 8 (w / 256 ^ k)

/-- The bytes of an instruction whose bits are `w`, numbered as spec/opcode_table.json numbers them; every bit
above `nbits` is 0; as many bytes as the longest instruction has (30_encoding R54). -/
def tableBytes (nbits w : Nat) : List Byte :=
  let v := w % 2 ^ nbits
  [tableByte v 0, tableByte v 1, tableByte v 2]

/-- The instruction the decoder reads from an instruction of the opcode table whose bits are `w`. -/
def decodeTableWord (nbits w : Nat) : Option Instr :=
  match decode (tableBytes nbits w) with
  | .ok (i, _) => some i
  | .error _ => none

/-! ## The encoder -/

/-- The opcode byte of an instruction: the "Encoding" line of its rule. -/
def Instr.opcode : Instr → Byte
  | .brk _ => 0x00
  | .oraIzx _ => 0x01
  | .jam op => op
  | .sloIzx _ => 0x03
  | .nopZp op _ => op
  | .oraZp _ => 0x05
  | .aslZp _ => 0x06
  | .sloZp _ => 0x07
  | .php => 0x08
  | .oraImm _ => 0x09
  | .aslAcc => 0x0A
  | .anc op _ => op
  | .nopAbs _ => 0x0C
  | .oraAbs _ => 0x0D
  | .aslAbs _ => 0x0E
  | .sloAbs _ => 0x0F
  | .bpl _ => 0x10
  | .oraIzy _ => 0x11
  | .sloIzy _ => 0x13
  | .nopZpx op _ => op
  | .oraZpx _ => 0x15
  | .aslZpx _ => 0x16
  | .sloZpx _ => 0x17
  | .clc => 0x18
  | .oraAby _ => 0x19
  | .nopImp op => op
  | .sloAby _ => 0x1B
  | .nopAbx op _ => op
  | .oraAbx _ => 0x1D
  | .aslAbx _ => 0x1E
  | .sloAbx _ => 0x1F
  | .jsr _ => 0x20
  | .andIzx _ => 0x21
  | .rlaIzx _ => 0x23
  | .bitZp _ => 0x24
  | .andZp _ => 0x25
  | .rolZp _ => 0x26
  | .rlaZp _ => 0x27
  | .plp => 0x28
  | .andImm _ => 0x29
  | .rolAcc => 0x2A
  | .bitAbs _ => 0x2C
  | .andAbs _ => 0x2D
  | .rolAbs _ => 0x2E
  | .rlaAbs _ => 0x2F
  | .bmi _ => 0x30
  | .andIzy _ => 0x31
  | .rlaIzy _ => 0x33
  | .andZpx _ => 0x35
  | .rolZpx _ => 0x36
  | .rlaZpx _ => 0x37
  | .sec => 0x38
  | .andAby _ => 0x39
  | .rlaAby _ => 0x3B
  | .andAbx _ => 0x3D
  | .rolAbx _ => 0x3E
  | .rlaAbx _ => 0x3F
  | .rti => 0x40
  | .eorIzx _ => 0x41
  | .sreIzx _ => 0x43
  | .eorZp _ => 0x45
  | .lsrZp _ => 0x46
  | .sreZp _ => 0x47
  | .pha => 0x48
  | .eorImm _ => 0x49
  | .lsrAcc => 0x4A
  | .alr _ => 0x4B
  | .jmpAbs _ => 0x4C
  | .eorAbs _ => 0x4D
  | .lsrAbs _ => 0x4E
  | .sreAbs _ => 0x4F
  | .bvc _ => 0x50
  | .eorIzy _ => 0x51
  | .sreIzy _ => 0x53
  | .eorZpx _ => 0x55
  | .lsrZpx _ => 0x56
  | .sreZpx _ => 0x57
  | .cli => 0x58
  | .eorAby _ => 0x59
  | .sreAby _ => 0x5B
  | .eorAbx _ => 0x5D
  | .lsrAbx _ => 0x5E
  | .sreAbx _ => 0x5F
  | .rts => 0x60
  | .adcIzx _ => 0x61
  | .rraIzx _ => 0x63
  | .adcZp _ => 0x65
  | .rorZp _ => 0x66
  | .rraZp _ => 0x67
  | .pla => 0x68
  | .adcImm _ => 0x69
  | .rorAcc => 0x6A
  | .arr _ => 0x6B
  | .jmpInd _ => 0x6C
  | .adcAbs _ => 0x6D
  | .rorAbs _ => 0x6E
  | .rraAbs _ => 0x6F
  | .bvs _ => 0x70
  | .adcIzy _ => 0x71
  | .rraIzy _ => 0x73
  | .adcZpx _ => 0x75
  | .rorZpx _ => 0x76
  | .rraZpx _ => 0x77
  | .sei => 0x78
  | .adcAby _ => 0x79
  | .rraAby _ => 0x7B
  | .adcAbx _ => 0x7D
  | .rorAbx _ => 0x7E
  | .rraAbx _ => 0x7F
  | .nopImm op _ => op
  | .staIzx _ => 0x81
  | .saxIzx _ => 0x83
  | .styZp _ => 0x84
  | .staZp _ => 0x85
  | .stxZp _ => 0x86
  | .saxZp _ => 0x87
  | .dey => 0x88
  | .txa => 0x8A
  | .ane _ => 0x8B
  | .styAbs _ => 0x8C
  | .staAbs _ => 0x8D
  | .stxAbs _ => 0x8E
  | .saxAbs _ => 0x8F
  | .bcc _ => 0x90
  | .staIzy _ => 0x91
  | .shaIzy _ => 0x93
  | .styZpx _ => 0x94
  | .staZpx _ => 0x95
  | .stxZpy _ => 0x96
  | .saxZpy _ => 0x97
  | .tya => 0x98
  | .staAby _ => 0x99
  | .txs => 0x9A
  | .tas _ => 0x9B
  | .shy _ => 0x9C
  | .staAbx _ => 0x9D
  | .shx _ => 0x9E
  | .shaAby _ => 0x9F
  | .ldyImm _ => 0xA0
  | .ldaIzx _ => 0xA1
  | .ldxImm _ => 0xA2
  | .laxIzx _ => 0xA3
  | .ldyZp _ => 0xA4
  | .ldaZp _ => 0xA5
  | .ldxZp _ => 0xA6
  | .laxZp _ => 0xA7
  | .tay => 0xA8
  | .ldaImm _ => 0xA9
  | .tax => 0xAA
  | .lxa _ => 0xAB
  | .ldyAbs _ => 0xAC
  | .ldaAbs _ => 0xAD
  | .ldxAbs _ => 0xAE
  | .laxAbs _ => 0xAF
  | .bcs _ => 0xB0
  | .ldaIzy _ => 0xB1
  | .laxIzy _ => 0xB3
  | .ldyZpx _ => 0xB4
  | .ldaZpx _ => 0xB5
  | .ldxZpy _ => 0xB6
  | .laxZpy _ => 0xB7
  | .clv => 0xB8
  | .ldaAby _ => 0xB9
  | .tsx => 0xBA
  | .las _ => 0xBB
  | .ldyAbx _ => 0xBC
  | .ldaAbx _ => 0xBD
  | .ldxAby _ => 0xBE
  | .laxAby _ => 0xBF
  | .cpyImm _ => 0xC0
  | .cmpIzx _ => 0xC1
  | .dcpIzx _ => 0xC3
  | .cpyZp _ => 0xC4
  | .cmpZp _ => 0xC5
  | .decZp _ => 0xC6
  | .dcpZp _ => 0xC7
  | .iny => 0xC8
  | .cmpImm _ => 0xC9
  | .dex => 0xCA
  | .sbx _ => 0xCB
  | .cpyAbs _ => 0xCC
  | .cmpAbs _ => 0xCD
  | .decAbs _ => 0xCE
  | .dcpAbs _ => 0xCF
  | .bne _ => 0xD0
  | .cmpIzy _ => 0xD1
  | .dcpIzy _ => 0xD3
  | .cmpZpx _ => 0xD5
  | .decZpx _ => 0xD6
  | .dcpZpx _ => 0xD7
  | .cld => 0xD8
  | .cmpAby _ => 0xD9
  | .dcpAby _ => 0xDB
  | .cmpAbx _ => 0xDD
  | .decAbx _ => 0xDE
  | .dcpAbx _ => 0xDF
  | .cpxImm _ => 0xE0
  | .sbcIzx _ => 0xE1
  | .iscIzx _ => 0xE3
  | .cpxZp _ => 0xE4
  | .sbcZp _ => 0xE5
  | .incZp _ => 0xE6
  | .iscZp _ => 0xE7
  | .inx => 0xE8
  | .sbcImm _ => 0xE9
  | .nop => 0xEA
  | .usbc _ => 0xEB
  | .cpxAbs _ => 0xEC
  | .sbcAbs _ => 0xED
  | .incAbs _ => 0xEE
  | .iscAbs _ => 0xEF
  | .beq _ => 0xF0
  | .sbcIzy _ => 0xF1
  | .iscIzy _ => 0xF3
  | .sbcZpx _ => 0xF5
  | .incZpx _ => 0xF6
  | .iscZpx _ => 0xF7
  | .sed => 0xF8
  | .sbcAby _ => 0xF9
  | .iscAby _ => 0xFB
  | .sbcAbx _ => 0xFD
  | .incAbx _ => 0xFE
  | .iscAbx _ => 0xFF

/-- The bytes of an instruction (30_encoding R54): the opcode, then the operand bytes. -/
def encode (i : Instr) : List Byte := i.opcode :: i.operand.bytes

end Sys2Proof
end

