-- ==== Sys2Proof/Config.lean ====
section
/-! DEFINITION. What the platform fixes: the parameters of 00_scope R6, and the one free value, the byte a
device answers. -/

namespace Sys2Proof

/-- Which access a bus event records: the core's `getByte` and `setByte` (20_memory R38, R41), or an
access of a DMA stage between ticks (R49). -/
inductive BusKind where
  | read
  | write
  | dmaRead
  | dmaWrite
deriving DecidableEq, Repr

/-- One bus event `(cycle, R|W, addr, value)` (20_memory R41). `cycle` is the cycle number within the
sequence (00_scope R10: the tick that begins with `t` executes cycle `t + 1`); 0 for an access made outside
any tick, by the reset entry point or a DMA stage. DESIGN CHOICE, log 9. -/
structure BusEvent where
  cycle : Nat
  kind  : BusKind
  addr  : Word
  value : Byte
deriving DecidableEq, Repr

namespace Config

/-- The byte a device answers to a read of `addr` after the bus history `trace` (20_memory R41: "a read
returns a byte the core does not choose, called a draw"; D19). A free value: it has no body, so no proof
can see what it is. DESIGN CHOICE, log 3. -/
opaque busDraw : (trace : List BusEvent) → (addr : Word) → Byte

/-- The parameters `P_MAGIC` (D17) and `P_BRK_POLLS` (D13) of 00_scope R6. They stand in State, so that a
claim about every state holds for every value of them (log 7). -/
structure Params where
  magic    : Byte
  brkPolls : Bool
deriving DecidableEq, Repr

/-- The defaults of 00_scope R6: `P_MAGIC = 0xFF`, `P_BRK_POLLS = true`. -/
def defaultParams : Params := { magic := 0xFF, brkPolls := true }

/-- The parameter `P_POWERON` of 00_scope R6 (D24): `zero`, or a draw that the model takes as arguments. -/
inductive PowerOn where
  | zero
  | draw (a x y : Byte) (n v d z c : Bool)
deriving DecidableEq, Repr

end Config

end Sys2Proof
end

