-- ==== Sys2Proof/Machine/State.lean ====
section
/-! DEFINITION. The state of the machine: the core's record of 10_state R34, the Bus beside it (20_memory
R41), and the parameters of 00_scope R6; the reasons a step can stop; the state right after reset. -/

namespace Sys2Proof.Machine

open Sys2Proof

/-- The register file without PC (40_sequencer R69, 10_state R15 to R18, R21). -/
structure Regs where
  a : Byte
  x : Byte
  y : Byte
  s : Byte
  n : Bool
  v : Bool
  d : Bool
  i : Bool
  z : Bool
  c : Bool
deriving DecidableEq, Repr

/-- What stands at an address: plain RAM, ROM (reads as memory, a write changes nothing), or a device whose
answer the core does not choose. The platform decides (20_memory R41, R48). DESIGN CHOICE, log 3. -/
inductive RegionKind where
  | ram
  | rom
  | device
deriving DecidableEq, Repr

/-- A run of `size` addresses from `base` of one kind. -/
structure Region where
  base : Nat
  size : Nat
  kind : RegionKind
deriving DecidableEq, Repr

/-- The bytes of memory that differ from what an unlisted address reads as, in canonical form
(`Memory.wf`). -/
abbrev Memory := List Host.Cell

/-- The Memory collaborator (20_memory R41): the bytes, the platform's map (the first region that holds an
address decides; an address in none is RAM), and the ordered trace of bus events, newest first. -/
structure Bus where
  mem     : Memory
  regions : List Region
  trace   : List BusEvent
deriving DecidableEq, Repr

/-- The machine. The fields from `regs` to `intRequested` are exactly those of 10_state R34; a bit is a
Bool (true is 1); `t` is 0 to 7 (R28); `irqAsserted` is a set of IRQ sources, named by numbers, as a
strictly rising list (log 2). -/
structure State where
  params       : Config.Params
  regs         : Regs
  pc           : Word
  opcode       : Byte
  t            : Fin 8
  synthetic    : Bool
  operand      : Byte
  addrLo       : Byte
  addrHi       : Byte
  ptrLo        : Byte
  ptrHi        : Byte
  pageCross    : Bool
  vector       : Word
  nmiLine      : Bool
  nmiPending   : Bool
  irqAsserted  : List Nat
  intRequested : Bool
  bus          : Bus
deriving DecidableEq, Repr

/-- Why the machine stops. The spec gives the core no run-time fault (00_scope R13, 60_exceptions R200). -/
inductive Fault where
  /-- Raised by a tick whose `t` names a cycle that the active template does not have. No run reaches such a
  state (the invariant `Machine.Invariant`); safe: the model stops where the spec says nothing. Log 10. -/
  | noSuchCycle
deriving DecidableEq, Repr

/-- Why an instruction has no meaning. -/
inductive Refusal where
  /-- Raised by an arm of `exec` whose instruction is not modelled yet; safe. No arm raises it. -/
  | notModelled (mnemonic : String)
deriving DecidableEq, Repr

/-- The state right after power-on and the reset entry point (70_reset R216, R217; 10_state R35), under
`P_POWERON = zero` (log 6), over a bus that is RAM everywhere with nothing written (logs 4, 5). PC is the word
at 0xFFFC, which reads 0x0000 there; the trace holds the entry point's two reads, low byte first. -/
def State.reset : State where
  params := Config.defaultParams
  regs := { a := 0, x := 0, y := 0, s := 0xFD, n := false, v := false, d := false, i := true, z := false, c := false }
  pc := 0x0000
  opcode := 0
  t := 0
  synthetic := false
  operand := 0
  addrLo := 0
  addrHi := 0
  ptrLo := 0
  ptrHi := 0
  pageCross := false
  vector := 0
  nmiLine := true
  nmiPending := false
  irqAsserted := []
  intRequested := false
  bus :=
    { mem := []
      regions := []
      trace := [{ cycle := 0, kind := .read, addr := 0xFFFD, value := 0 },
                { cycle := 0, kind := .read, addr := 0xFFFC, value := 0 }] }

end Sys2Proof.Machine
end

