-- ==== Sys2Proof/Machine/Flags.lean ====
section
/-! DEFINITION. Every flag computation: setNZ, the status byte, addition, comparison, shifts and rotates. -/

namespace Sys2Proof.Machine

open Sys2Proof

/-- `setNZ(v)` (00_scope R9): `N <- v[7]; Z <- (v == 0)`. -/
def Regs.setNZ (r : Regs) (v : Byte) : Regs := { r with n := v.getLsbD 7, z := v == 0 }

/-- `pack(b)` (10_state R22, R23): bits N V 1 B D I Z C, bit 7 down to bit 0. -/
def pack (r : Regs) (b : Bool) : Byte :=
  BitVec.ofBool r.n ++ BitVec.ofBool r.v ++ 1#1 ++ BitVec.ofBool b ++ BitVec.ofBool r.d ++ BitVec.ofBool r.i
    ++ BitVec.ofBool r.z ++ BitVec.ofBool r.c

/-- `unpack(v)` (10_state R24): the six live flags; bits 5 and 4 are discarded. -/
def unpack (r : Regs) (v : Byte) : Regs :=
  { r with
    n := v.getLsbD 7, v := v.getLsbD 6, d := v.getLsbD 3, i := v.getLsbD 2, z := v.getLsbD 1, c := v.getLsbD 0 }

/-- The exact unsigned sum `zext(A) + zext(m) + C`, 0 to 511 (41_alu R109). -/
def addSum (a m : Byte) (c : Bool) : Nat := a.toNat + m.toNat + c.toNat

/-- `ADC(m)` (41_alu R109): binary whatever D is; C is the carry out of bit 7, V is set when both operands
share a sign and the result's sign differs. -/
def addWithCarry (r : Regs) (m : Byte) : Regs :=
  let res := BitVec.ofNat 8 (addSum r.a m r.c)
  let v := ((r.a ^^^ res) &&& (m ^^^ res)).getLsbD 7
  { r with a := res, v := v, c := decide (255 < addSum r.a m r.c) }.setNZ res

/-- `SBC(m)` (41_alu R110): ADC of the complemented operand. -/
def subWithBorrow (r : Regs) (m : Byte) : Regs := addWithCarry r (m ^^^ 0xFF)

/-- `Compare(v, m)` (41_alu R114): C iff `v >= m` unsigned, Z iff equal, N from the difference. -/
def compareFlags (r : Regs) (v m : Byte) : Regs :=
  { r with c := decide (m.toNat ≤ v.toNat), z := v == m, n := (v - m).getLsbD 7 }

/-- `ShiftASL(v)` (43_shift_incdec R131). -/
def shiftAsl (r : Regs) (v : Byte) : Regs × Byte :=
  let res := v <<< 1
  ({ r with c := v.getLsbD 7 }.setNZ res, res)

/-- `ShiftLSR(v)` (R132). -/
def shiftLsr (r : Regs) (v : Byte) : Regs × Byte :=
  let res := v >>> 1
  ({ r with c := v.getLsbD 0 }.setNZ res, res)

/-- `RotROL(v)` (R133): the carry enters at bit 0. -/
def rotRol (r : Regs) (v : Byte) : Regs × Byte :=
  let res := v <<< 1 ||| (BitVec.ofBool r.c).setWidth 8
  ({ r with c := v.getLsbD 7 }.setNZ res, res)

/-- `RotROR(v)` (R134): the carry enters at bit 7. -/
def rotRor (r : Regs) (v : Byte) : Regs × Byte :=
  let res := v >>> 1 ||| (BitVec.ofBool r.c).setWidth 8 <<< 7
  ({ r with c := v.getLsbD 0 }.setNZ res, res)

end Sys2Proof.Machine
end

