-- ==== Sys2Proof/Machine/Ops.lean ====
section
/-! DEFINITION. The shared operations: memory, the bus, the interrupt latch, the cycle descriptor and how a
tick runs one, and the two sequences that take an interrupt and return from it. -/

namespace Sys2Proof.Machine

open Sys2Proof

/-! ## Memory -/

/-- What a byte that nothing has written reads as: 0x00 (log 4). -/
def unlisted : Byte := 0x00

/-- The byte at address `k`. -/
def Memory.read : Memory → Nat → Byte
  | [], _ => unlisted
  | (a, v) :: m, k => if a = k then v else Memory.read m k

/-- Memory after `v` is written at `k`, in canonical form when `m` is: writing what an unlisted address reads
as removes the entry. -/
def Memory.write : Memory → Nat → Byte → Memory
  | [], k, v => if v = unlisted then [] else [(k, v)]
  | (a, w) :: m, k, v =>
    if k < a then (if v = unlisted then (a, w) :: m else (k, v) :: (a, w) :: m)
    else if k = a then (if v = unlisted then m else (k, v) :: m)
    else (a, w) :: Memory.write m k v

/-- Every address of `m` is at least `lo`, rises strictly, lies in the 64 KiB space, and no entry equals what
an unlisted address reads as. -/
def Memory.wfFrom : Nat → Memory → Bool
  | _, [] => true
  | lo, (a, v) :: m => decide (lo ≤ a) && decide (a < 65536) && (v != unlisted) && Memory.wfFrom (a + 1) m

/-- The canonical form of memory. -/
def Memory.wf (m : Memory) : Bool := Memory.wfFrom 0 m

/-! ## The Bus (20_memory R38, R41) -/

/-- Whether the region holds address `a`. -/
def Region.holds (r : Region) (a : Word) : Bool := decide (r.base ≤ a.toNat) && decide (a.toNat < r.base + r.size)

/-- What stands at address `a`. -/
def Bus.kindAt (b : Bus) (a : Word) : RegionKind :=
  match b.regions.find? (fun r => r.holds a) with
  | some r => r.kind
  | none => .ram

/-- The byte the Bus answers to a read of `a` now: memory's byte in RAM and ROM, a draw at a device
(20_memory R41, D19). -/
def Bus.answer (b : Bus) (a : Word) : Byte :=
  match b.kindAt a with
  | .device => Config.busDraw b.trace a
  | .ram => b.mem.read a.toNat
  | .rom => b.mem.read a.toNat

/-- Memory after a write of `v` to `a`: only RAM changes. -/
def Bus.memAfter (b : Bus) (a : Word) (v : Byte) : Memory :=
  match b.kindAt a with
  | .ram => b.mem.write a.toNat v
  | .rom => b.mem
  | .device => b.mem

/-- The Bus after an event is recorded. -/
def Bus.log (b : Bus) (e : BusEvent) : Bus := { b with trace := e :: b.trace }

/-- `MemRead(a, 1)` in cycle `cyc` (00_scope R9): the Bus after it; its value is `b.answer a`. -/
def Bus.read (b : Bus) (cyc : Nat) (a : Word) : Bus := b.log { cycle := cyc, kind := .read, addr := a, value := b.answer a }

/-- `MemWrite(a, 1, v)` in cycle `cyc` (00_scope R9). -/
def Bus.write (b : Bus) (cyc : Nat) (a : Word) (v : Byte) : Bus :=
  { b with mem := b.memAfter a v }.log { cycle := cyc, kind := .write, addr := a, value := v }

/-! ## Registers -/

/-- The byte a read of `a` would return now. -/
def State.peek (s : State) (a : Word) : Byte := s.bus.answer a

/-- `EA`, the word `{addrHi, addrLo}` (40_sequencer §3). -/
def State.ea (s : State) : Word := mkWord s.addrHi s.addrLo

/-- The address of the stack byte S points at, `0x0100 | S` (20_memory R46). -/
def State.top (s : State) : Word := stackAddr s.regs.s

/-- `S <- S - 1`, the second half of `Push` (00_scope R9). -/
def State.decS (s : State) : State := { s with regs := { s.regs with s := s.regs.s - 1 } }

/-- `PullPre()`: `S <- S + 1` (00_scope R9). -/
def State.incS (s : State) : State := { s with regs := { s.regs with s := s.regs.s + 1 } }

/-- The scratch fields cleared at the start of every sequence (10_state R29). -/
def State.clearScratch (s : State) : State :=
  { s with operand := 0, addrLo := 0, addrHi := 0, ptrLo := 0, ptrHi := 0, pageCross := false, vector := 0 }

/-! ## The interrupt latch (60_exceptions) -/

/-- `irqPending` (R194): not state, computed at each poll. -/
def State.irqPending (s : State) : Bool := decide (0 < s.irqAsserted.length) && !s.regs.i

/-- `Poll()` (R197): the service latch takes the answer; nothing else changes. -/
def State.poll (s : State) : State := { s with intRequested := s.nmiPending || s.irqPending }

/-- The NMI vector 0xFFFA (20_memory R48, D4). -/
def nmiVector : Word := 0xFFFA

/-- The reset vector 0xFFFC (20_memory R48, D4). -/
def resetVector : Word := 0xFFFC

/-- The IRQ and BRK vector 0xFFFE (20_memory R48, D4). -/
def irqVector : Word := 0xFFFE

/-- `SelectVector()` (R202): a pending NMI takes the vector and is consumed, whatever started the sequence. -/
def State.selectVector (s : State) : State :=
  if s.nmiPending then { s with vector := nmiVector, nmiPending := false } else { s with vector := irqVector }

/-! ## The cycle descriptor (40_sequencer R67) -/

/-- The one bus access of a cycle (20_memory R39): a read, whose value a dummy access discards, or a write. -/
inductive Access where
  | read (a : Word)
  | write (a : Word) (v : Byte)
deriving DecidableEq, Repr

/-- Whether a cycle is a fetch: a read at PC after which PC advances (R67, R73). BRK's cycle 2 is one only
when the sequence is not an interrupt entry (R100). -/
inductive FetchMark where
  | no
  | yes
  | unlessSynthetic
deriving DecidableEq, Repr

/-- The mark `last` of a cycle (R67): a condition is read from the state at the start of the tick (R71). -/
inductive LastMark where
  | never
  | always
  | when (p : State → Bool)

/-- A cycle descriptor (R67): its access, from the state at the start of the tick; whether it fetches; its
effect, given the byte the access moved, on the state after the access and the PC increment; its `last` mark;
whether it is the data-ready point (R70). A cycle the manual marks `only if` is reached only when the cycle
before it was not last, which is its condition (log 14). -/
structure Descr where
  access : State → Access
  fetch  : FetchMark := .no
  effect : Byte → State → State := fun _ s => s
  last   : LastMark := .never
  ready  : Bool := false

/-- Where a sequence polls (R72, 60_exceptions R198): at the start of its last cycle; a branch at cycle 2; BRK
at its last cycle unless it is an interrupt entry, if `P_BRK_POLLS`. -/
inductive PollRule where
  | atLast
  | atCycle2
  | brk
deriving DecidableEq, Repr

/-- The cycles of a sequence after cycle 1 (R66 is cycle 1 of every one), or the halt (R103). -/
inductive Template where
  | halt
  | cycles (poll : PollRule) (ds : List Descr)

/-- Whether the mark holds in the state at the start of the tick (R71). -/
def LastMark.holds (l : LastMark) (s : State) : Bool :=
  match l with
  | .never => false
  | .always => true
  | .when p => p s

/-- Whether the cycle advances PC (R73). -/
def FetchMark.holds (f : FetchMark) (s : State) : Bool :=
  match f with
  | .no => false
  | .yes => true
  | .unlessSynthetic => !s.synthetic

/-- `PollAt(T, c, last)` (R72); cycle c is executed when `t = c - 1`. -/
def PollRule.polls (p : PollRule) (s : State) (last : Bool) : Bool :=
  match p with
  | .atLast => last
  | .atCycle2 => s.t == 1
  | .brk => !s.synthetic && last && s.params.brkPolls

/-- `Execute(T, c)` (R65): the bus access, the PC increment of a fetch, then the effect. -/
def Descr.run (d : Descr) (s : State) : State :=
  match d.access s with
  | .read a =>
    let s1 := { s with bus := s.bus.read (s.t.val + 1) a }
    let s2 := if d.fetch.holds s then { s1 with pc := s.pc + 1 } else s1
    d.effect (s.bus.answer a) s2
  | .write a v => d.effect v { s with bus := s.bus.write (s.t.val + 1) a v }

/-- A tick at `t > 0` (R65): poll, bus access, effects, then `t`. The halt changes nothing (R103). -/
def cycle (T : Template) (s : State) : Host.Outcome State Fault Refusal :=
  match T with
  | .halt => .next s
  | .cycles poll ds =>
    match ds[s.t.val - 1]? with
    | none => .fault .noSuchCycle
    | some d =>
      let last := d.last.holds s
      let polled := if poll.polls s last then s.poll else s
      .next { d.run polled with t := if last then 0 else s.t + 1 }

/-- Cycle 1 of a fetched instruction (R66, the `else` branch): the scratch fields are cleared, the opcode is
read at PC, and PC advances. -/
def beginFetch (s : State) : State :=
  { s.clearScratch with
    synthetic := false
    opcode := s.bus.answer s.pc
    pc := s.pc + 1
    t := 1
    bus := s.bus.read 1 s.pc }

/-- Cycle 1 of a hardware interrupt entry (R66, 60_exceptions R199): the synthetic BRK; the read at PC is
discarded and PC does not advance. -/
def beginEntry (s : State) : State :=
  { s.clearScratch with
    intRequested := false
    synthetic := true
    opcode := 0x00
    t := 1
    bus := s.bus.read 1 s.pc }

/-- At most `n` ticks of the active sequence, up to the end of its last cycle (`t = 0`). -/
def finish (T : Template) : Nat → State → Host.Outcome State Fault Refusal
  | 0, s => .next s
  | n + 1, s =>
    if s.t = 0 then .next s
    else
      match cycle T s with
      | .next s' => finish T n s'
      | .fault r => .fault r
      | .refused r => .refused r

/-- The whole of a sequence with template `T`, from its opcode fetch when `s` is between instructions, else
the rest of it (log 12). No template has more than seven cycles after the fetch; the halt stays where it is. -/
def run (T : Template) (s : State) : Host.Outcome State Fault Refusal :=
  finish T 8 (if s.t = 0 then beginFetch s else s)

/-! ## Descriptors the templates are built from -/

/-- `Dummy(a)` (00_scope R9), then the effect. -/
def dummyAt (a : State → Word) (eff : State → State := id) : Descr :=
  { access := fun s => .read (a s), effect := fun _ => eff }

/-- `MemRead(a)` into a scratch field. -/
def readAt (a : State → Word) (eff : Byte → State → State) : Descr :=
  { access := fun s => .read (a s), effect := eff }

/-- A fetch cycle (R73): `MemRead(PC); PC <- PC + 1`, then the effect. -/
def fetchTo (eff : Byte → State → State) : Descr :=
  { access := fun s => .read s.pc, fetch := .yes, effect := eff }

/-- `Push(v)` (00_scope R9). -/
def push (v : State → Byte) (eff : State → State := id) : Descr :=
  { access := fun s => .write s.top (v s), effect := fun _ s => eff s.decS }

/-- The mark `last` on a cycle. -/
def Descr.lastly (d : Descr) : Descr := { d with last := .always }

/-! ## Taking an interrupt and returning from it -/

/-- `T_BRK` (40_sequencer R100, 60_exceptions R201 to R203): the one entry sequence, of a software BRK and of a
hardware interrupt. PC goes to the stack high byte first, then the status with B = 1 for a software BRK and
B = 0 for an entry; the vector is chosen after that push; I is set in cycle 6; PC is loaded in cycle 7. -/
def tBrk : Template := .cycles .brk
  [ { access := fun s => .read s.pc, fetch := .unlessSynthetic },
    push (fun s => hiByte s.pc),
    push (fun s => loByte s.pc),
    push (fun s => pack s.regs (!s.synthetic)) State.selectVector,
    readAt (fun s => s.vector) (fun v s => { s with addrLo := v, regs := { s.regs with i := true } }),
    (readAt (fun s => s.vector + 1) (fun v s => { s with addrHi := v, pc := mkWord v s.addrLo })).lastly ]

/-- `T_RTI` (40_sequencer R99, 45_control R162): the status is unpacked in cycle 4, before the poll; PC is
pulled low byte first, with no increment. -/
def tRti : Template := .cycles .atLast
  [ dummyAt (fun s => s.pc),
    dummyAt State.top State.incS,
    readAt State.top (fun v s => { s with regs := unpack s.regs v }.incS),
    readAt State.top (fun v s => { s with addrLo := v }.incS),
    (readAt State.top (fun v s => { s with addrHi := v, pc := mkWord v s.addrLo })).lastly ]

end Sys2Proof.Machine
end

