-- ==== Sys2Proof/Machine/Templates.lean ====
section
/-! DEFINITION. The addressing cycle templates (40_sequencer §3, §4) and the shape of an OpcodeTable entry
(R104). Cycle 1 of every template is `beginFetch` (R66); T_BRK and T_RTI stand in Machine/Ops.lean. -/

namespace Sys2Proof.Machine

open Sys2Proof

/-! ## The kinds of OperationSemantics (R69) -/

/-- `ReadOp : Regs × byte → Regs`. -/
abbrev ReadOp := Regs → Byte → Regs

/-- `WriteOp : Regs → byte`. -/
abbrev WriteOp := Regs → Byte

/-- `RmwOp : Regs × byte → Regs × byte`. -/
abbrev RmwOp := Regs → Byte → Regs × Byte

/-- `ImpOp : Regs → Regs`. -/
abbrev ImpOp := Regs → Regs

/-- `BranchCond : Regs → bit`. -/
abbrev BranchCond := Regs → Bool

/-- `Compose(rmw, rd)` (R69): the ReadOp takes the modified byte and the registers the RmwOp left. -/
def compose (rmw : RmwOp) (rd : ReadOp) : RmwOp := fun r m => (rd (rmw r m).1 (rmw r m).2, (rmw r m).2)

/-! ## Parts of cycles -/

/-- The index register X. -/
def regX (r : Regs) : Byte := r.x

/-- The index register Y. -/
def regY (r : Regs) : Byte := r.y

/-- `Z(addrLo)`. -/
def State.zpAddr (s : State) : Word := zeroPage s.addrLo

/-- `s <- addrLo + Ix; addrLo <- s[7:0]; pageCross <- s[8]` (R85). -/
def State.indexBy (ix : Regs → Byte) (s : State) : State :=
  { s with addrLo := indexLow s.addrLo (ix s.regs), pageCross := indexCarry s.addrLo (ix s.regs) }

/-- `if pageCross == 1: addrHi <- (addrHi + 1) mod 256` (R86). -/
def State.fixHigh (s : State) : State := if s.pageCross then { s with addrHi := s.addrHi + 1 } else s

/-- `operand <- m; Regs <- ReadOp(Regs, operand)` (R70). -/
def State.readOp (op : ReadOp) (m : Byte) (s : State) : State := { s with operand := m, regs := op s.regs m }

/-- The read data-ready cycle at `a` (R70). -/
def readReady (a : State → Word) (op : ReadOp) : Descr :=
  { access := fun s => .read (a s), effect := State.readOp op, last := .always, ready := true }

/-- The write data-ready cycle at `a` (R70): WriteOp reads the registers of the start of the tick. -/
def writeReady (a : State → Word) (op : WriteOp) : Descr :=
  { access := fun s => .write (a s) (op s.regs), last := .always, ready := true }

/-- The three cycles of a read-modify-write at `a` (R70): read; dummy write of the unmodified byte and the
RmwOp; write of the result. -/
def rmwCycles (a : State → Word) (op : RmwOp) : List Descr :=
  [ readAt a (fun v s => { s with operand := v }),
    { access := fun s => .write (a s) s.operand
      effect := fun _ s => { s with operand := (op s.regs s.operand).2, regs := (op s.regs s.operand).1 }
      ready := true },
    { access := fun s => .write (a s) s.operand, last := .always } ]

/-- `[fetch]: addrLo <- MemRead(PC)`. -/
def fetchLo : Descr := fetchTo fun v s => { s with addrLo := v }

/-- `[fetch]: addrHi <- MemRead(PC)`. -/
def fetchHi : Descr := fetchTo fun v s => { s with addrHi := v }

/-- `[fetch]: addrHi <- MemRead(PC)`, then the index addition (R85). -/
def fetchHiIndexed (ix : Regs → Byte) : Descr := fetchTo fun v s => { s with addrHi := v }.indexBy ix

/-- `[fetch]: ptrLo <- MemRead(PC)`. -/
def fetchPtr : Descr := fetchTo fun v s => { s with ptrLo := v }

/-- Cycle 3 of T_ZPI (R79): a dummy read of the unindexed address; the index wraps in page zero. -/
def indexZeroPage (ix : Regs → Byte) : Descr :=
  dummyAt State.zpAddr fun s => { s with addrLo := s.addrLo + ix s.regs }

/-- Cycle 3 of T_IZX (R88). -/
def indexPtr : Descr := dummyAt (fun s => zeroPage s.ptrLo) fun s => { s with ptrLo := s.ptrLo + s.regs.x }

/-- `addrLo <- MemRead(Z(ptrLo))`. -/
def ptrReadLo : Descr := readAt (fun s => zeroPage s.ptrLo) fun v s => { s with addrLo := v }

/-- `addrHi <- MemRead(Z((ptrLo + 1) mod 256))`. -/
def ptrReadHi : Descr := readAt (fun s => zeroPage (s.ptrLo + 1)) fun v s => { s with addrHi := v }

/-- `addrHi <- MemRead(Z((ptrLo + 1) mod 256))`, then the index addition of Y (R91). -/
def ptrReadHiIndexed : Descr :=
  readAt (fun s => zeroPage (s.ptrLo + 1)) fun v s => { s with addrHi := v }.indexBy regY

/-- The uncorrected-address cycle of writes and RMW (R86, R87): always a dummy read. -/
def fixCycle : Descr := dummyAt State.ea State.fixHigh

/-- The uncorrected-address cycle of an indexed read (R85, R91): the data read and the last cycle when no page
was crossed, else a dummy read and the correction. -/
def readUnlessCross (op : ReadOp) : Descr :=
  { access := fun s => .read s.ea
    effect := fun v s => if s.pageCross then { s with addrHi := s.addrHi + 1 } else s.readOp op v
    last := .when fun s => !s.pageCross
    ready := true }

/-! ## Implied, immediate -/

/-- T_IMP, 2 cycles (R74). -/
def tImp (op : ImpOp) : Template := .cycles .atLast
  [ { access := fun s => .read s.pc, effect := fun _ s => { s with regs := op s.regs }, last := .always, ready := true } ]

/-- T_IMM, 2 cycles (R75). The unstable ANE and LXA read a parameter (R179, R180). -/
def tImm (op : Config.Params → ReadOp) : Template := .cycles .atLast
  [ { access := fun s => .read s.pc, fetch := .yes, effect := fun v s => s.readOp (op s.params) v, last := .always,
      ready := true } ]

/-! ## Zero page (R76 to R81) -/

/-- T_ZP_R, 3 cycles (R76). -/
def tZpR (op : ReadOp) : Template := .cycles .atLast [fetchLo, readReady State.zpAddr op]

/-- T_ZP_W, 3 cycles (R77). -/
def tZpW (op : WriteOp) : Template := .cycles .atLast [fetchLo, writeReady State.zpAddr op]

/-- T_ZP_M, 5 cycles (R78). -/
def tZpM (op : RmwOp) : Template := .cycles .atLast (fetchLo :: rmwCycles State.zpAddr op)

/-- T_ZPI_R, 4 cycles (R79). -/
def tZpiR (ix : Regs → Byte) (op : ReadOp) : Template :=
  .cycles .atLast [fetchLo, indexZeroPage ix, readReady State.zpAddr op]

/-- T_ZPI_W, 4 cycles (R80). -/
def tZpiW (ix : Regs → Byte) (op : WriteOp) : Template :=
  .cycles .atLast [fetchLo, indexZeroPage ix, writeReady State.zpAddr op]

/-- T_ZPI_M, 6 cycles (R81). -/
def tZpiM (ix : Regs → Byte) (op : RmwOp) : Template :=
  .cycles .atLast (fetchLo :: indexZeroPage ix :: rmwCycles State.zpAddr op)

/-! ## Absolute (R82 to R87) -/

/-- T_ABS_R, 4 cycles (R82). -/
def tAbsR (op : ReadOp) : Template := .cycles .atLast [fetchLo, fetchHi, readReady State.ea op]

/-- T_ABS_W, 4 cycles (R83). -/
def tAbsW (op : WriteOp) : Template := .cycles .atLast [fetchLo, fetchHi, writeReady State.ea op]

/-- T_ABS_M, 6 cycles (R84). -/
def tAbsM (op : RmwOp) : Template := .cycles .atLast (fetchLo :: fetchHi :: rmwCycles State.ea op)

/-- T_ABI_R, 4 cycles, 5 on a page cross (R85). -/
def tAbiR (ix : Regs → Byte) (op : ReadOp) : Template :=
  .cycles .atLast [fetchLo, fetchHiIndexed ix, readUnlessCross op, readReady State.ea op]

/-- T_ABI_W, 5 cycles (R86), with its write cycle. -/
def tAbiW (ix : Regs → Byte) (store : Descr) : Template :=
  .cycles .atLast [fetchLo, fetchHiIndexed ix, fixCycle, store]

/-- T_ABI_M, 7 cycles (R87). -/
def tAbiM (ix : Regs → Byte) (op : RmwOp) : Template :=
  .cycles .atLast (fetchLo :: fetchHiIndexed ix :: fixCycle :: rmwCycles State.ea op)

/-! ## Indirect (R88 to R93) -/

/-- T_IZX_R, 6 cycles (R88). -/
def tIzxR (op : ReadOp) : Template :=
  .cycles .atLast [fetchPtr, indexPtr, ptrReadLo, ptrReadHi, readReady State.ea op]

/-- T_IZX_W, 6 cycles (R89). -/
def tIzxW (op : WriteOp) : Template :=
  .cycles .atLast [fetchPtr, indexPtr, ptrReadLo, ptrReadHi, writeReady State.ea op]

/-- T_IZX_M, 8 cycles (R90). -/
def tIzxM (op : RmwOp) : Template :=
  .cycles .atLast (fetchPtr :: indexPtr :: ptrReadLo :: ptrReadHi :: rmwCycles State.ea op)

/-- T_IZY_R, 5 cycles, 6 on a page cross (R91). -/
def tIzyR (op : ReadOp) : Template :=
  .cycles .atLast [fetchPtr, ptrReadLo, ptrReadHiIndexed, readUnlessCross op, readReady State.ea op]

/-- T_IZY_W, 6 cycles (R92), with its write cycle. -/
def tIzyW (store : Descr) : Template :=
  .cycles .atLast [fetchPtr, ptrReadLo, ptrReadHiIndexed, fixCycle, store]

/-- T_IZY_M, 8 cycles (R93). -/
def tIzyM (op : RmwOp) : Template :=
  .cycles .atLast (fetchPtr :: ptrReadLo :: ptrReadHiIndexed :: fixCycle :: rmwCycles State.ea op)

/-! ## The unstable stores (47_unofficial R183) -/

/-- `H = (addrHi - pageCross) mod 256`: the base address's high byte, `addrHi` being already corrected. -/
def State.baseHigh (s : State) : Byte := if s.pageCross then s.addrHi - 1 else s.addrHi

/-- The byte `v = r & ((H + 1) mod 256)`. -/
def unstableValue (r : WriteOp) (s : State) : Byte := r s.regs &&& (s.baseHigh + 1)

/-- The write cycle `UnstableStore(r)`: on a page cross the written address's high byte becomes `v`. `before` is
what the instruction does to the registers in the same tick (TAS writes S, R186). -/
def unstableStore (r : WriteOp) (before : ImpOp := id) : Descr :=
  { access := fun s => .write (mkWord (if s.pageCross then unstableValue r s else s.addrHi) s.addrLo) (unstableValue r s)
    effect := fun v s => { s with regs := before s.regs, addrHi := if s.pageCross then v else s.addrHi }
    last := .always
    ready := true }

/-! ## Control flow and stack (R94 to R103) -/

/-- The branch target `(PC + sext_16(operand)) mod 65536`, PC being PCnext (R94). -/
def State.branchTarget (s : State) : Word := s.pc + sext16 s.operand

/-- T_REL, 2 cycles, 3 when taken, 4 when taken to another page (R94). -/
def tRel (cond : BranchCond) : Template := .cycles .atCycle2
  [ { access := fun s => .read s.pc, fetch := .yes, effect := fun v s => { s with operand := v },
      last := .when fun s => !cond s.regs },
    { access := fun s => .read s.pc
      effect := fun _ s =>
        { s with
          pageCross := hiByte s.branchTarget != hiByte s.pc
          addrHi := hiByte s.branchTarget
          pc := mkWord (hiByte s.pc) (loByte s.branchTarget) }
      last := .when fun s => hiByte s.branchTarget == hiByte s.pc },
    (dummyAt (fun s => s.pc) fun s => { s with pc := mkWord s.addrHi (loByte s.pc) }).lastly ]

/-- T_JMP_ABS, 3 cycles (R95). -/
def tJmpAbs : Template := .cycles .atLast
  [fetchLo, (fetchTo fun v s => { s with addrHi := v, pc := mkWord v s.addrLo }).lastly]

/-- T_JMP_IND, 5 cycles (R96): the high byte comes from the pointer's own page. -/
def tJmpInd : Template := .cycles .atLast
  [ fetchPtr,
    fetchTo (fun v s => { s with ptrHi := v }),
    readAt (fun s => mkWord s.ptrHi s.ptrLo) (fun v s => { s with addrLo := v }),
    (readAt (fun s => mkWord s.ptrHi (s.ptrLo + 1)) (fun v s => { s with addrHi := v, pc := mkWord v s.addrLo })).lastly ]

/-- T_JSR, 6 cycles (R97). -/
def tJsr : Template := .cycles .atLast
  [ fetchLo,
    dummyAt State.top,
    push (fun s => hiByte s.pc),
    push (fun s => loByte s.pc),
    (fetchTo fun v s => { s with addrHi := v, pc := mkWord v s.addrLo }).lastly ]

/-- T_RTS, 6 cycles (R98). -/
def tRts : Template := .cycles .atLast
  [ dummyAt (fun s => s.pc),
    dummyAt State.top State.incS,
    readAt State.top (fun v s => { s with addrLo := v }.incS),
    readAt State.top (fun v s => { s with addrHi := v, pc := mkWord v s.addrLo }),
    (dummyAt (fun s => s.pc) fun s => { s with pc := s.pc + 1 }).lastly ]

/-- T_PUSH, 3 cycles (R101). -/
def tPush (v : WriteOp) : Template := .cycles .atLast
  [dummyAt (fun s => s.pc), { push (fun s => v s.regs) with last := .always, ready := true }]

/-- T_PULL, 4 cycles (R102). -/
def tPull (op : ReadOp) : Template := .cycles .atLast
  [ dummyAt (fun s => s.pc),
    dummyAt State.top State.incS,
    { access := fun s => .read s.top, effect := fun v s => { s with regs := op s.regs v }, last := .always, ready := true } ]

/-- T_JAM (R103): after the opcode fetch, no access and no change. -/
def tJam : Template := .halt

/-! ## template(mode, pattern) (R68, R108) -/

/-- The addressing modes with a memory operand. -/
inductive MemMode where
  | zp | zpx | zpy | abs | abx | aby | izx | izy
deriving DecidableEq, Repr

/-- The read template of a mode (R68, column R). -/
def readTemplate (m : MemMode) (op : ReadOp) : Template :=
  match m with
  | .zp => tZpR op
  | .zpx => tZpiR regX op
  | .zpy => tZpiR regY op
  | .abs => tAbsR op
  | .abx => tAbiR regX op
  | .aby => tAbiR regY op
  | .izx => tIzxR op
  | .izy => tIzyR op

/-- The write template of a mode (R68, column W). -/
def writeTemplate (m : MemMode) (op : WriteOp) : Template :=
  match m with
  | .zp => tZpW op
  | .zpx => tZpiW regX op
  | .zpy => tZpiW regY op
  | .abs => tAbsW op
  | .abx => tAbiW regX (writeReady State.ea op)
  | .aby => tAbiW regY (writeReady State.ea op)
  | .izx => tIzxW op
  | .izy => tIzyW (writeReady State.ea op)

/-- The read-modify-write template of a mode (R68, column M). -/
def rmwTemplate (m : MemMode) (op : RmwOp) : Template :=
  match m with
  | .zp => tZpM op
  | .zpx => tZpiM regX op
  | .zpy => tZpiM regY op
  | .abs => tAbsM op
  | .abx => tAbiM regX op
  | .aby => tAbiM regY op
  | .izx => tIzxM op
  | .izy => tIzyM op

/-! ## OpcodeTable entries (R104) -/

/-- The access pattern of an entry (00_scope glossary; 40_sequencer R68). -/
inductive Pattern where
  | implied | read | write | rmw | branch | bespoke | halt
deriving DecidableEq, Repr

/-- The penalty on the base cycle count (R105, opcode_table.json `pagecross`). -/
inductive Penalty where
  | none
  | pageCross
  | branch
deriving DecidableEq, Repr

/-- One entry of the OpcodeTable (R104): the expected base cycle count (none for JAM, which has no finite
count), the penalty and the byte length are the documented values the construction check compares with. -/
structure Entry where
  mnemonic : Mnemonic
  mode     : Mode
  pattern  : Pattern
  template : Template
  cycles   : Option Nat
  penalty  : Penalty
  bytes    : Nat
  official : Bool

end Sys2Proof.Machine
end

