-- ==== Sys2Proof/Machine/Control.lean ====
section
/-! DEFINITION. Control transfer: branches, jumps, subroutines, RTI and BRK (45_control). First the OperationSemantics of each mnemonic (40_sequencer R69), then for each
opcode its OpcodeTable entry (R104) and its meaning: the entry's template, run from the opcode fetch to the last
cycle. -/

namespace Sys2Proof.Machine

open Sys2Proof

/-- `BranchCond BPL` (R150). -/
def condBpl : BranchCond := fun r => !r.n

/-- `BranchCond BMI` (R151). -/
def condBmi : BranchCond := fun r => r.n

/-- `BranchCond BVC` (R152). -/
def condBvc : BranchCond := fun r => !r.v

/-- `BranchCond BVS` (R153). -/
def condBvs : BranchCond := fun r => r.v

/-- `BranchCond BCC` (R154). -/
def condBcc : BranchCond := fun r => !r.c

/-- `BranchCond BCS` (R155). -/
def condBcs : BranchCond := fun r => r.c

/-- `BranchCond BNE` (R156). -/
def condBne : BranchCond := fun r => !r.z

/-- `BranchCond BEQ` (R157). -/
def condBeq : BranchCond := fun r => r.z

/-! ## Entries and meanings -/

/-- 0x10: BPL rel (R150). -/
def entryBpl : Entry := ⟨.bpl, .rel, .branch, tRel condBpl, some 2, .branch, 2, true⟩

/-- BPL rel (R150). -/
def execBpl (s : State) : Host.Outcome State Fault Refusal := run entryBpl.template s

/-- 0x30: BMI rel (R151). -/
def entryBmi : Entry := ⟨.bmi, .rel, .branch, tRel condBmi, some 2, .branch, 2, true⟩

/-- BMI rel (R151). -/
def execBmi (s : State) : Host.Outcome State Fault Refusal := run entryBmi.template s

/-- 0x50: BVC rel (R152). -/
def entryBvc : Entry := ⟨.bvc, .rel, .branch, tRel condBvc, some 2, .branch, 2, true⟩

/-- BVC rel (R152). -/
def execBvc (s : State) : Host.Outcome State Fault Refusal := run entryBvc.template s

/-- 0x70: BVS rel (R153). -/
def entryBvs : Entry := ⟨.bvs, .rel, .branch, tRel condBvs, some 2, .branch, 2, true⟩

/-- BVS rel (R153). -/
def execBvs (s : State) : Host.Outcome State Fault Refusal := run entryBvs.template s

/-- 0x90: BCC rel (R154). -/
def entryBcc : Entry := ⟨.bcc, .rel, .branch, tRel condBcc, some 2, .branch, 2, true⟩

/-- BCC rel (R154). -/
def execBcc (s : State) : Host.Outcome State Fault Refusal := run entryBcc.template s

/-- 0xB0: BCS rel (R155). -/
def entryBcs : Entry := ⟨.bcs, .rel, .branch, tRel condBcs, some 2, .branch, 2, true⟩

/-- BCS rel (R155). -/
def execBcs (s : State) : Host.Outcome State Fault Refusal := run entryBcs.template s

/-- 0xD0: BNE rel (R156). -/
def entryBne : Entry := ⟨.bne, .rel, .branch, tRel condBne, some 2, .branch, 2, true⟩

/-- BNE rel (R156). -/
def execBne (s : State) : Host.Outcome State Fault Refusal := run entryBne.template s

/-- 0xF0: BEQ rel (R157). -/
def entryBeq : Entry := ⟨.beq, .rel, .branch, tRel condBeq, some 2, .branch, 2, true⟩

/-- BEQ rel (R157). -/
def execBeq (s : State) : Host.Outcome State Fault Refusal := run entryBeq.template s

/-- 0x4C: JMP abs (R158). -/
def entryJmpAbs : Entry := ⟨.jmp, .abs, .bespoke, tJmpAbs, some 3, .none, 3, true⟩

/-- JMP abs (R158). -/
def execJmpAbs (s : State) : Host.Outcome State Fault Refusal := run entryJmpAbs.template s

/-- 0x6C: JMP (abs) (R159). -/
def entryJmpInd : Entry := ⟨.jmp, .ind, .bespoke, tJmpInd, some 5, .none, 3, true⟩

/-- JMP (abs) (R159). -/
def execJmpInd (s : State) : Host.Outcome State Fault Refusal := run entryJmpInd.template s

/-- 0x20: JSR abs (R160). -/
def entryJsr : Entry := ⟨.jsr, .abs, .bespoke, tJsr, some 6, .none, 3, true⟩

/-- JSR abs (R160). -/
def execJsr (s : State) : Host.Outcome State Fault Refusal := run entryJsr.template s

/-- 0x60: RTS (R161). -/
def entryRts : Entry := ⟨.rts, .imp, .bespoke, tRts, some 6, .none, 1, true⟩

/-- RTS (R161). -/
def execRts (s : State) : Host.Outcome State Fault Refusal := run entryRts.template s

/-- 0x40: RTI (R162). -/
def entryRti : Entry := ⟨.rti, .imp, .bespoke, tRti, some 6, .none, 1, true⟩

/-- RTI (R162). -/
def execRti (s : State) : Host.Outcome State Fault Refusal := run entryRti.template s

/-- 0x00: BRK (R163). -/
def entryBrk : Entry := ⟨.brk, .imp, .bespoke, tBrk, some 7, .none, 2, true⟩

/-- BRK (R163). -/
def execBrk (s : State) : Host.Outcome State Fault Refusal := run entryBrk.template s

end Sys2Proof.Machine
end

