-- ==== Sys2Proof/Machine/LoadStore.lean ====
section
/-! DEFINITION. Loads, stores and register transfers (42_load_store_transfer). First the OperationSemantics of each mnemonic (40_sequencer R69), then for each
opcode its OpcodeTable entry (R104) and its meaning: the entry's template, run from the opcode fetch to the last
cycle. -/

namespace Sys2Proof.Machine

open Sys2Proof

/-- `ReadOp LDA(m)` (R119). -/
def opLda : ReadOp := fun r m => { r with a := m }.setNZ m

/-- `ReadOp LDX(m)` (R120). -/
def opLdx : ReadOp := fun r m => { r with x := m }.setNZ m

/-- `ReadOp LDY(m)` (R121). -/
def opLdy : ReadOp := fun r m => { r with y := m }.setNZ m

/-- `WriteOp STA()` (R122). -/
def opSta : WriteOp := fun r => r.a

/-- `WriteOp STX()` (R123). -/
def opStx : WriteOp := fun r => r.x

/-- `WriteOp STY()` (R124). -/
def opSty : WriteOp := fun r => r.y

/-- `ImpOp TAX` (R125). -/
def opTax : ImpOp := fun r => { r with x := r.a }.setNZ r.a

/-- `ImpOp TAY` (R126). -/
def opTay : ImpOp := fun r => { r with y := r.a }.setNZ r.a

/-- `ImpOp TXA` (R127). -/
def opTxa : ImpOp := fun r => { r with a := r.x }.setNZ r.x

/-- `ImpOp TYA` (R128). -/
def opTya : ImpOp := fun r => { r with a := r.y }.setNZ r.y

/-- `ImpOp TSX` (R129). -/
def opTsx : ImpOp := fun r => { r with x := r.s }.setNZ r.s

/-- `ImpOp TXS` (R130): the one transfer that sets no flag. -/
def opTxs : ImpOp := fun r => { r with s := r.x }

/-! ## Entries and meanings -/

/-- 0xA1: LDA (zp,X) (R119). -/
def entryLdaIzx : Entry := ⟨.lda, .izx, .read, readTemplate .izx opLda, some 6, .none, 2, true⟩

/-- LDA (zp,X) (R119). -/
def execLdaIzx (s : State) : Host.Outcome State Fault Refusal := run entryLdaIzx.template s

/-- 0xA5: LDA zp (R119). -/
def entryLdaZp : Entry := ⟨.lda, .zp, .read, readTemplate .zp opLda, some 3, .none, 2, true⟩

/-- LDA zp (R119). -/
def execLdaZp (s : State) : Host.Outcome State Fault Refusal := run entryLdaZp.template s

/-- 0xA9: LDA # (R119). -/
def entryLdaImm : Entry := ⟨.lda, .imm, .read, tImm fun _ => opLda, some 2, .none, 2, true⟩

/-- LDA # (R119). -/
def execLdaImm (s : State) : Host.Outcome State Fault Refusal := run entryLdaImm.template s

/-- 0xAD: LDA abs (R119). -/
def entryLdaAbs : Entry := ⟨.lda, .abs, .read, readTemplate .abs opLda, some 4, .none, 3, true⟩

/-- LDA abs (R119). -/
def execLdaAbs (s : State) : Host.Outcome State Fault Refusal := run entryLdaAbs.template s

/-- 0xB1: LDA (zp),Y (R119). -/
def entryLdaIzy : Entry := ⟨.lda, .izy, .read, readTemplate .izy opLda, some 5, .pageCross, 2, true⟩

/-- LDA (zp),Y (R119). -/
def execLdaIzy (s : State) : Host.Outcome State Fault Refusal := run entryLdaIzy.template s

/-- 0xB5: LDA zp,X (R119). -/
def entryLdaZpx : Entry := ⟨.lda, .zpx, .read, readTemplate .zpx opLda, some 4, .none, 2, true⟩

/-- LDA zp,X (R119). -/
def execLdaZpx (s : State) : Host.Outcome State Fault Refusal := run entryLdaZpx.template s

/-- 0xB9: LDA abs,Y (R119). -/
def entryLdaAby : Entry := ⟨.lda, .aby, .read, readTemplate .aby opLda, some 4, .pageCross, 3, true⟩

/-- LDA abs,Y (R119). -/
def execLdaAby (s : State) : Host.Outcome State Fault Refusal := run entryLdaAby.template s

/-- 0xBD: LDA abs,X (R119). -/
def entryLdaAbx : Entry := ⟨.lda, .abx, .read, readTemplate .abx opLda, some 4, .pageCross, 3, true⟩

/-- LDA abs,X (R119). -/
def execLdaAbx (s : State) : Host.Outcome State Fault Refusal := run entryLdaAbx.template s

/-- 0xA2: LDX # (R120). -/
def entryLdxImm : Entry := ⟨.ldx, .imm, .read, tImm fun _ => opLdx, some 2, .none, 2, true⟩

/-- LDX # (R120). -/
def execLdxImm (s : State) : Host.Outcome State Fault Refusal := run entryLdxImm.template s

/-- 0xA6: LDX zp (R120). -/
def entryLdxZp : Entry := ⟨.ldx, .zp, .read, readTemplate .zp opLdx, some 3, .none, 2, true⟩

/-- LDX zp (R120). -/
def execLdxZp (s : State) : Host.Outcome State Fault Refusal := run entryLdxZp.template s

/-- 0xAE: LDX abs (R120). -/
def entryLdxAbs : Entry := ⟨.ldx, .abs, .read, readTemplate .abs opLdx, some 4, .none, 3, true⟩

/-- LDX abs (R120). -/
def execLdxAbs (s : State) : Host.Outcome State Fault Refusal := run entryLdxAbs.template s

/-- 0xB6: LDX zp,Y (R120). -/
def entryLdxZpy : Entry := ⟨.ldx, .zpy, .read, readTemplate .zpy opLdx, some 4, .none, 2, true⟩

/-- LDX zp,Y (R120). -/
def execLdxZpy (s : State) : Host.Outcome State Fault Refusal := run entryLdxZpy.template s

/-- 0xBE: LDX abs,Y (R120). -/
def entryLdxAby : Entry := ⟨.ldx, .aby, .read, readTemplate .aby opLdx, some 4, .pageCross, 3, true⟩

/-- LDX abs,Y (R120). -/
def execLdxAby (s : State) : Host.Outcome State Fault Refusal := run entryLdxAby.template s

/-- 0xA0: LDY # (R121). -/
def entryLdyImm : Entry := ⟨.ldy, .imm, .read, tImm fun _ => opLdy, some 2, .none, 2, true⟩

/-- LDY # (R121). -/
def execLdyImm (s : State) : Host.Outcome State Fault Refusal := run entryLdyImm.template s

/-- 0xA4: LDY zp (R121). -/
def entryLdyZp : Entry := ⟨.ldy, .zp, .read, readTemplate .zp opLdy, some 3, .none, 2, true⟩

/-- LDY zp (R121). -/
def execLdyZp (s : State) : Host.Outcome State Fault Refusal := run entryLdyZp.template s

/-- 0xAC: LDY abs (R121). -/
def entryLdyAbs : Entry := ⟨.ldy, .abs, .read, readTemplate .abs opLdy, some 4, .none, 3, true⟩

/-- LDY abs (R121). -/
def execLdyAbs (s : State) : Host.Outcome State Fault Refusal := run entryLdyAbs.template s

/-- 0xB4: LDY zp,X (R121). -/
def entryLdyZpx : Entry := ⟨.ldy, .zpx, .read, readTemplate .zpx opLdy, some 4, .none, 2, true⟩

/-- LDY zp,X (R121). -/
def execLdyZpx (s : State) : Host.Outcome State Fault Refusal := run entryLdyZpx.template s

/-- 0xBC: LDY abs,X (R121). -/
def entryLdyAbx : Entry := ⟨.ldy, .abx, .read, readTemplate .abx opLdy, some 4, .pageCross, 3, true⟩

/-- LDY abs,X (R121). -/
def execLdyAbx (s : State) : Host.Outcome State Fault Refusal := run entryLdyAbx.template s

/-- 0x81: STA (zp,X) (R122). -/
def entryStaIzx : Entry := ⟨.sta, .izx, .write, writeTemplate .izx opSta, some 6, .none, 2, true⟩

/-- STA (zp,X) (R122). -/
def execStaIzx (s : State) : Host.Outcome State Fault Refusal := run entryStaIzx.template s

/-- 0x85: STA zp (R122). -/
def entryStaZp : Entry := ⟨.sta, .zp, .write, writeTemplate .zp opSta, some 3, .none, 2, true⟩

/-- STA zp (R122). -/
def execStaZp (s : State) : Host.Outcome State Fault Refusal := run entryStaZp.template s

/-- 0x8D: STA abs (R122). -/
def entryStaAbs : Entry := ⟨.sta, .abs, .write, writeTemplate .abs opSta, some 4, .none, 3, true⟩

/-- STA abs (R122). -/
def execStaAbs (s : State) : Host.Outcome State Fault Refusal := run entryStaAbs.template s

/-- 0x91: STA (zp),Y (R122). -/
def entryStaIzy : Entry := ⟨.sta, .izy, .write, writeTemplate .izy opSta, some 6, .none, 2, true⟩

/-- STA (zp),Y (R122). -/
def execStaIzy (s : State) : Host.Outcome State Fault Refusal := run entryStaIzy.template s

/-- 0x95: STA zp,X (R122). -/
def entryStaZpx : Entry := ⟨.sta, .zpx, .write, writeTemplate .zpx opSta, some 4, .none, 2, true⟩

/-- STA zp,X (R122). -/
def execStaZpx (s : State) : Host.Outcome State Fault Refusal := run entryStaZpx.template s

/-- 0x99: STA abs,Y (R122). -/
def entryStaAby : Entry := ⟨.sta, .aby, .write, writeTemplate .aby opSta, some 5, .none, 3, true⟩

/-- STA abs,Y (R122). -/
def execStaAby (s : State) : Host.Outcome State Fault Refusal := run entryStaAby.template s

/-- 0x9D: STA abs,X (R122). -/
def entryStaAbx : Entry := ⟨.sta, .abx, .write, writeTemplate .abx opSta, some 5, .none, 3, true⟩

/-- STA abs,X (R122). -/
def execStaAbx (s : State) : Host.Outcome State Fault Refusal := run entryStaAbx.template s

/-- 0x86: STX zp (R123). -/
def entryStxZp : Entry := ⟨.stx, .zp, .write, writeTemplate .zp opStx, some 3, .none, 2, true⟩

/-- STX zp (R123). -/
def execStxZp (s : State) : Host.Outcome State Fault Refusal := run entryStxZp.template s

/-- 0x8E: STX abs (R123). -/
def entryStxAbs : Entry := ⟨.stx, .abs, .write, writeTemplate .abs opStx, some 4, .none, 3, true⟩

/-- STX abs (R123). -/
def execStxAbs (s : State) : Host.Outcome State Fault Refusal := run entryStxAbs.template s

/-- 0x96: STX zp,Y (R123). -/
def entryStxZpy : Entry := ⟨.stx, .zpy, .write, writeTemplate .zpy opStx, some 4, .none, 2, true⟩

/-- STX zp,Y (R123). -/
def execStxZpy (s : State) : Host.Outcome State Fault Refusal := run entryStxZpy.template s

/-- 0x84: STY zp (R124). -/
def entryStyZp : Entry := ⟨.sty, .zp, .write, writeTemplate .zp opSty, some 3, .none, 2, true⟩

/-- STY zp (R124). -/
def execStyZp (s : State) : Host.Outcome State Fault Refusal := run entryStyZp.template s

/-- 0x8C: STY abs (R124). -/
def entryStyAbs : Entry := ⟨.sty, .abs, .write, writeTemplate .abs opSty, some 4, .none, 3, true⟩

/-- STY abs (R124). -/
def execStyAbs (s : State) : Host.Outcome State Fault Refusal := run entryStyAbs.template s

/-- 0x94: STY zp,X (R124). -/
def entryStyZpx : Entry := ⟨.sty, .zpx, .write, writeTemplate .zpx opSty, some 4, .none, 2, true⟩

/-- STY zp,X (R124). -/
def execStyZpx (s : State) : Host.Outcome State Fault Refusal := run entryStyZpx.template s

/-- 0xAA: TAX (R125). -/
def entryTax : Entry := ⟨.tax, .imp, .implied, tImp opTax, some 2, .none, 1, true⟩

/-- TAX (R125). -/
def execTax (s : State) : Host.Outcome State Fault Refusal := run entryTax.template s

/-- 0xA8: TAY (R126). -/
def entryTay : Entry := ⟨.tay, .imp, .implied, tImp opTay, some 2, .none, 1, true⟩

/-- TAY (R126). -/
def execTay (s : State) : Host.Outcome State Fault Refusal := run entryTay.template s

/-- 0x8A: TXA (R127). -/
def entryTxa : Entry := ⟨.txa, .imp, .implied, tImp opTxa, some 2, .none, 1, true⟩

/-- TXA (R127). -/
def execTxa (s : State) : Host.Outcome State Fault Refusal := run entryTxa.template s

/-- 0x98: TYA (R128). -/
def entryTya : Entry := ⟨.tya, .imp, .implied, tImp opTya, some 2, .none, 1, true⟩

/-- TYA (R128). -/
def execTya (s : State) : Host.Outcome State Fault Refusal := run entryTya.template s

/-- 0xBA: TSX (R129). -/
def entryTsx : Entry := ⟨.tsx, .imp, .implied, tImp opTsx, some 2, .none, 1, true⟩

/-- TSX (R129). -/
def execTsx (s : State) : Host.Outcome State Fault Refusal := run entryTsx.template s

/-- 0x9A: TXS (R130). -/
def entryTxs : Entry := ⟨.txs, .imp, .implied, tImp opTxs, some 2, .none, 1, true⟩

/-- TXS (R130). -/
def execTxs (s : State) : Host.Outcome State Fault Refusal := run entryTxs.template s

end Sys2Proof.Machine
end

