-- ==== Sys2Proof/Machine/Stack.lean ====
section
/-! DEFINITION. Stack instructions (46_stack). First the OperationSemantics of each mnemonic (40_sequencer R69), then for each
opcode its OpcodeTable entry (R104) and its meaning: the entry's template, run from the opcode fetch to the last
cycle. -/

namespace Sys2Proof.Machine

open Sys2Proof

/-- The byte PHA pushes (R164). -/
def opPha : WriteOp := fun r => r.a

/-- The byte PHP pushes, `pack(1)` (R165). -/
def opPhp : WriteOp := fun r => pack r true

/-- What PLA does with the pulled byte (R166). -/
def opPla : ReadOp := fun r m => { r with a := m }.setNZ m

/-- What PLP does with the pulled byte (R167). -/
def opPlp : ReadOp := unpack

/-! ## Entries and meanings -/

/-- 0x48: PHA (R164). -/
def entryPha : Entry := ⟨.pha, .imp, .bespoke, tPush opPha, some 3, .none, 1, true⟩

/-- PHA (R164). -/
def execPha (s : State) : Host.Outcome State Fault Refusal := run entryPha.template s

/-- 0x08: PHP (R165). -/
def entryPhp : Entry := ⟨.php, .imp, .bespoke, tPush opPhp, some 3, .none, 1, true⟩

/-- PHP (R165). -/
def execPhp (s : State) : Host.Outcome State Fault Refusal := run entryPhp.template s

/-- 0x68: PLA (R166). -/
def entryPla : Entry := ⟨.pla, .imp, .bespoke, tPull opPla, some 4, .none, 1, true⟩

/-- PLA (R166). -/
def execPla (s : State) : Host.Outcome State Fault Refusal := run entryPla.template s

/-- 0x28: PLP (R167). -/
def entryPlp : Entry := ⟨.plp, .imp, .bespoke, tPull opPlp, some 4, .none, 1, true⟩

/-- PLP (R167). -/
def execPlp (s : State) : Host.Outcome State Fault Refusal := run entryPlp.template s

end Sys2Proof.Machine
end

