-- ==== Sys2Proof/Machine/Alu.lean ====
section
/-! DEFINITION. The ALU operations (41_alu). First the OperationSemantics of each mnemonic (40_sequencer R69), then for each
opcode its OpcodeTable entry (R104) and its meaning: the entry's template, run from the opcode fetch to the last
cycle. -/

namespace Sys2Proof.Machine

open Sys2Proof

/-- `ReadOp ADC(m)` (R109). D is not read. -/
def opAdc : ReadOp := addWithCarry

/-- `ReadOp SBC(m)` (R110): C is the inverted borrow. -/
def opSbc : ReadOp := subWithBorrow

/-- `ReadOp AND(m)` (R111). -/
def opAnd : ReadOp := fun r m => { r with a := r.a &&& m }.setNZ (r.a &&& m)

/-- `ReadOp ORA(m)` (R112). -/
def opOra : ReadOp := fun r m => { r with a := r.a ||| m }.setNZ (r.a ||| m)

/-- `ReadOp EOR(m)` (R113). -/
def opEor : ReadOp := fun r m => { r with a := r.a ^^^ m }.setNZ (r.a ^^^ m)

/-- `ReadOp CMP(m)` (R114). -/
def opCmp : ReadOp := fun r m => compareFlags r r.a m

/-- `ReadOp CPX(m)` (R115). -/
def opCpx : ReadOp := fun r m => compareFlags r r.x m

/-- `ReadOp CPY(m)` (R116). -/
def opCpy : ReadOp := fun r m => compareFlags r r.y m

/-- `ReadOp BIT(m)` (R117): Z from A AND m, N and V from the operand itself. -/
def opBit : ReadOp := fun r m => { r with z := r.a &&& m == 0, n := m.getLsbD 7, v := m.getLsbD 6 }

/-! ## Entries and meanings -/

/-- 0x61: ADC (zp,X) (R109). -/
def entryAdcIzx : Entry := ⟨.adc, .izx, .read, readTemplate .izx opAdc, some 6, .none, 2, true⟩

/-- ADC (zp,X) (R109). -/
def execAdcIzx (s : State) : Host.Outcome State Fault Refusal := run entryAdcIzx.template s

/-- 0x65: ADC zp (R109). -/
def entryAdcZp : Entry := ⟨.adc, .zp, .read, readTemplate .zp opAdc, some 3, .none, 2, true⟩

/-- ADC zp (R109). -/
def execAdcZp (s : State) : Host.Outcome State Fault Refusal := run entryAdcZp.template s

/-- 0x69: ADC # (R109). -/
def entryAdcImm : Entry := ⟨.adc, .imm, .read, tImm fun _ => opAdc, some 2, .none, 2, true⟩

/-- ADC # (R109). -/
def execAdcImm (s : State) : Host.Outcome State Fault Refusal := run entryAdcImm.template s

/-- 0x6D: ADC abs (R109). -/
def entryAdcAbs : Entry := ⟨.adc, .abs, .read, readTemplate .abs opAdc, some 4, .none, 3, true⟩

/-- ADC abs (R109). -/
def execAdcAbs (s : State) : Host.Outcome State Fault Refusal := run entryAdcAbs.template s

/-- 0x71: ADC (zp),Y (R109). -/
def entryAdcIzy : Entry := ⟨.adc, .izy, .read, readTemplate .izy opAdc, some 5, .pageCross, 2, true⟩

/-- ADC (zp),Y (R109). -/
def execAdcIzy (s : State) : Host.Outcome State Fault Refusal := run entryAdcIzy.template s

/-- 0x75: ADC zp,X (R109). -/
def entryAdcZpx : Entry := ⟨.adc, .zpx, .read, readTemplate .zpx opAdc, some 4, .none, 2, true⟩

/-- ADC zp,X (R109). -/
def execAdcZpx (s : State) : Host.Outcome State Fault Refusal := run entryAdcZpx.template s

/-- 0x79: ADC abs,Y (R109). -/
def entryAdcAby : Entry := ⟨.adc, .aby, .read, readTemplate .aby opAdc, some 4, .pageCross, 3, true⟩

/-- ADC abs,Y (R109). -/
def execAdcAby (s : State) : Host.Outcome State Fault Refusal := run entryAdcAby.template s

/-- 0x7D: ADC abs,X (R109). -/
def entryAdcAbx : Entry := ⟨.adc, .abx, .read, readTemplate .abx opAdc, some 4, .pageCross, 3, true⟩

/-- ADC abs,X (R109). -/
def execAdcAbx (s : State) : Host.Outcome State Fault Refusal := run entryAdcAbx.template s

/-- 0xE1: SBC (zp,X) (R110). -/
def entrySbcIzx : Entry := ⟨.sbc, .izx, .read, readTemplate .izx opSbc, some 6, .none, 2, true⟩

/-- SBC (zp,X) (R110). -/
def execSbcIzx (s : State) : Host.Outcome State Fault Refusal := run entrySbcIzx.template s

/-- 0xE5: SBC zp (R110). -/
def entrySbcZp : Entry := ⟨.sbc, .zp, .read, readTemplate .zp opSbc, some 3, .none, 2, true⟩

/-- SBC zp (R110). -/
def execSbcZp (s : State) : Host.Outcome State Fault Refusal := run entrySbcZp.template s

/-- 0xE9: SBC # (R110). -/
def entrySbcImm : Entry := ⟨.sbc, .imm, .read, tImm fun _ => opSbc, some 2, .none, 2, true⟩

/-- SBC # (R110). -/
def execSbcImm (s : State) : Host.Outcome State Fault Refusal := run entrySbcImm.template s

/-- 0xED: SBC abs (R110). -/
def entrySbcAbs : Entry := ⟨.sbc, .abs, .read, readTemplate .abs opSbc, some 4, .none, 3, true⟩

/-- SBC abs (R110). -/
def execSbcAbs (s : State) : Host.Outcome State Fault Refusal := run entrySbcAbs.template s

/-- 0xF1: SBC (zp),Y (R110). -/
def entrySbcIzy : Entry := ⟨.sbc, .izy, .read, readTemplate .izy opSbc, some 5, .pageCross, 2, true⟩

/-- SBC (zp),Y (R110). -/
def execSbcIzy (s : State) : Host.Outcome State Fault Refusal := run entrySbcIzy.template s

/-- 0xF5: SBC zp,X (R110). -/
def entrySbcZpx : Entry := ⟨.sbc, .zpx, .read, readTemplate .zpx opSbc, some 4, .none, 2, true⟩

/-- SBC zp,X (R110). -/
def execSbcZpx (s : State) : Host.Outcome State Fault Refusal := run entrySbcZpx.template s

/-- 0xF9: SBC abs,Y (R110). -/
def entrySbcAby : Entry := ⟨.sbc, .aby, .read, readTemplate .aby opSbc, some 4, .pageCross, 3, true⟩

/-- SBC abs,Y (R110). -/
def execSbcAby (s : State) : Host.Outcome State Fault Refusal := run entrySbcAby.template s

/-- 0xFD: SBC abs,X (R110). -/
def entrySbcAbx : Entry := ⟨.sbc, .abx, .read, readTemplate .abx opSbc, some 4, .pageCross, 3, true⟩

/-- SBC abs,X (R110). -/
def execSbcAbx (s : State) : Host.Outcome State Fault Refusal := run entrySbcAbx.template s

/-- 0x21: AND (zp,X) (R111). -/
def entryAndIzx : Entry := ⟨.and, .izx, .read, readTemplate .izx opAnd, some 6, .none, 2, true⟩

/-- AND (zp,X) (R111). -/
def execAndIzx (s : State) : Host.Outcome State Fault Refusal := run entryAndIzx.template s

/-- 0x25: AND zp (R111). -/
def entryAndZp : Entry := ⟨.and, .zp, .read, readTemplate .zp opAnd, some 3, .none, 2, true⟩

/-- AND zp (R111). -/
def execAndZp (s : State) : Host.Outcome State Fault Refusal := run entryAndZp.template s

/-- 0x29: AND # (R111). -/
def entryAndImm : Entry := ⟨.and, .imm, .read, tImm fun _ => opAnd, some 2, .none, 2, true⟩

/-- AND # (R111). -/
def execAndImm (s : State) : Host.Outcome State Fault Refusal := run entryAndImm.template s

/-- 0x2D: AND abs (R111). -/
def entryAndAbs : Entry := ⟨.and, .abs, .read, readTemplate .abs opAnd, some 4, .none, 3, true⟩

/-- AND abs (R111). -/
def execAndAbs (s : State) : Host.Outcome State Fault Refusal := run entryAndAbs.template s

/-- 0x31: AND (zp),Y (R111). -/
def entryAndIzy : Entry := ⟨.and, .izy, .read, readTemplate .izy opAnd, some 5, .pageCross, 2, true⟩

/-- AND (zp),Y (R111). -/
def execAndIzy (s : State) : Host.Outcome State Fault Refusal := run entryAndIzy.template s

/-- 0x35: AND zp,X (R111). -/
def entryAndZpx : Entry := ⟨.and, .zpx, .read, readTemplate .zpx opAnd, some 4, .none, 2, true⟩

/-- AND zp,X (R111). -/
def execAndZpx (s : State) : Host.Outcome State Fault Refusal := run entryAndZpx.template s

/-- 0x39: AND abs,Y (R111). -/
def entryAndAby : Entry := ⟨.and, .aby, .read, readTemplate .aby opAnd, some 4, .pageCross, 3, true⟩

/-- AND abs,Y (R111). -/
def execAndAby (s : State) : Host.Outcome State Fault Refusal := run entryAndAby.template s

/-- 0x3D: AND abs,X (R111). -/
def entryAndAbx : Entry := ⟨.and, .abx, .read, readTemplate .abx opAnd, some 4, .pageCross, 3, true⟩

/-- AND abs,X (R111). -/
def execAndAbx (s : State) : Host.Outcome State Fault Refusal := run entryAndAbx.template s

/-- 0x01: ORA (zp,X) (R112). -/
def entryOraIzx : Entry := ⟨.ora, .izx, .read, readTemplate .izx opOra, some 6, .none, 2, true⟩

/-- ORA (zp,X) (R112). -/
def execOraIzx (s : State) : Host.Outcome State Fault Refusal := run entryOraIzx.template s

/-- 0x05: ORA zp (R112). -/
def entryOraZp : Entry := ⟨.ora, .zp, .read, readTemplate .zp opOra, some 3, .none, 2, true⟩

/-- ORA zp (R112). -/
def execOraZp (s : State) : Host.Outcome State Fault Refusal := run entryOraZp.template s

/-- 0x09: ORA # (R112). -/
def entryOraImm : Entry := ⟨.ora, .imm, .read, tImm fun _ => opOra, some 2, .none, 2, true⟩

/-- ORA # (R112). -/
def execOraImm (s : State) : Host.Outcome State Fault Refusal := run entryOraImm.template s

/-- 0x0D: ORA abs (R112). -/
def entryOraAbs : Entry := ⟨.ora, .abs, .read, readTemplate .abs opOra, some 4, .none, 3, true⟩

/-- ORA abs (R112). -/
def execOraAbs (s : State) : Host.Outcome State Fault Refusal := run entryOraAbs.template s

/-- 0x11: ORA (zp),Y (R112). -/
def entryOraIzy : Entry := ⟨.ora, .izy, .read, readTemplate .izy opOra, some 5, .pageCross, 2, true⟩

/-- ORA (zp),Y (R112). -/
def execOraIzy (s : State) : Host.Outcome State Fault Refusal := run entryOraIzy.template s

/-- 0x15: ORA zp,X (R112). -/
def entryOraZpx : Entry := ⟨.ora, .zpx, .read, readTemplate .zpx opOra, some 4, .none, 2, true⟩

/-- ORA zp,X (R112). -/
def execOraZpx (s : State) : Host.Outcome State Fault Refusal := run entryOraZpx.template s

/-- 0x19: ORA abs,Y (R112). -/
def entryOraAby : Entry := ⟨.ora, .aby, .read, readTemplate .aby opOra, some 4, .pageCross, 3, true⟩

/-- ORA abs,Y (R112). -/
def execOraAby (s : State) : Host.Outcome State Fault Refusal := run entryOraAby.template s

/-- 0x1D: ORA abs,X (R112). -/
def entryOraAbx : Entry := ⟨.ora, .abx, .read, readTemplate .abx opOra, some 4, .pageCross, 3, true⟩

/-- ORA abs,X (R112). -/
def execOraAbx (s : State) : Host.Outcome State Fault Refusal := run entryOraAbx.template s

/-- 0x41: EOR (zp,X) (R113). -/
def entryEorIzx : Entry := ⟨.eor, .izx, .read, readTemplate .izx opEor, some 6, .none, 2, true⟩

/-- EOR (zp,X) (R113). -/
def execEorIzx (s : State) : Host.Outcome State Fault Refusal := run entryEorIzx.template s

/-- 0x45: EOR zp (R113). -/
def entryEorZp : Entry := ⟨.eor, .zp, .read, readTemplate .zp opEor, some 3, .none, 2, true⟩

/-- EOR zp (R113). -/
def execEorZp (s : State) : Host.Outcome State Fault Refusal := run entryEorZp.template s

/-- 0x49: EOR # (R113). -/
def entryEorImm : Entry := ⟨.eor, .imm, .read, tImm fun _ => opEor, some 2, .none, 2, true⟩

/-- EOR # (R113). -/
def execEorImm (s : State) : Host.Outcome State Fault Refusal := run entryEorImm.template s

/-- 0x4D: EOR abs (R113). -/
def entryEorAbs : Entry := ⟨.eor, .abs, .read, readTemplate .abs opEor, some 4, .none, 3, true⟩

/-- EOR abs (R113). -/
def execEorAbs (s : State) : Host.Outcome State Fault Refusal := run entryEorAbs.template s

/-- 0x51: EOR (zp),Y (R113). -/
def entryEorIzy : Entry := ⟨.eor, .izy, .read, readTemplate .izy opEor, some 5, .pageCross, 2, true⟩

/-- EOR (zp),Y (R113). -/
def execEorIzy (s : State) : Host.Outcome State Fault Refusal := run entryEorIzy.template s

/-- 0x55: EOR zp,X (R113). -/
def entryEorZpx : Entry := ⟨.eor, .zpx, .read, readTemplate .zpx opEor, some 4, .none, 2, true⟩

/-- EOR zp,X (R113). -/
def execEorZpx (s : State) : Host.Outcome State Fault Refusal := run entryEorZpx.template s

/-- 0x59: EOR abs,Y (R113). -/
def entryEorAby : Entry := ⟨.eor, .aby, .read, readTemplate .aby opEor, some 4, .pageCross, 3, true⟩

/-- EOR abs,Y (R113). -/
def execEorAby (s : State) : Host.Outcome State Fault Refusal := run entryEorAby.template s

/-- 0x5D: EOR abs,X (R113). -/
def entryEorAbx : Entry := ⟨.eor, .abx, .read, readTemplate .abx opEor, some 4, .pageCross, 3, true⟩

/-- EOR abs,X (R113). -/
def execEorAbx (s : State) : Host.Outcome State Fault Refusal := run entryEorAbx.template s

/-- 0xC1: CMP (zp,X) (R114). -/
def entryCmpIzx : Entry := ⟨.cmp, .izx, .read, readTemplate .izx opCmp, some 6, .none, 2, true⟩

/-- CMP (zp,X) (R114). -/
def execCmpIzx (s : State) : Host.Outcome State Fault Refusal := run entryCmpIzx.template s

/-- 0xC5: CMP zp (R114). -/
def entryCmpZp : Entry := ⟨.cmp, .zp, .read, readTemplate .zp opCmp, some 3, .none, 2, true⟩

/-- CMP zp (R114). -/
def execCmpZp (s : State) : Host.Outcome State Fault Refusal := run entryCmpZp.template s

/-- 0xC9: CMP # (R114). -/
def entryCmpImm : Entry := ⟨.cmp, .imm, .read, tImm fun _ => opCmp, some 2, .none, 2, true⟩

/-- CMP # (R114). -/
def execCmpImm (s : State) : Host.Outcome State Fault Refusal := run entryCmpImm.template s

/-- 0xCD: CMP abs (R114). -/
def entryCmpAbs : Entry := ⟨.cmp, .abs, .read, readTemplate .abs opCmp, some 4, .none, 3, true⟩

/-- CMP abs (R114). -/
def execCmpAbs (s : State) : Host.Outcome State Fault Refusal := run entryCmpAbs.template s

/-- 0xD1: CMP (zp),Y (R114). -/
def entryCmpIzy : Entry := ⟨.cmp, .izy, .read, readTemplate .izy opCmp, some 5, .pageCross, 2, true⟩

/-- CMP (zp),Y (R114). -/
def execCmpIzy (s : State) : Host.Outcome State Fault Refusal := run entryCmpIzy.template s

/-- 0xD5: CMP zp,X (R114). -/
def entryCmpZpx : Entry := ⟨.cmp, .zpx, .read, readTemplate .zpx opCmp, some 4, .none, 2, true⟩

/-- CMP zp,X (R114). -/
def execCmpZpx (s : State) : Host.Outcome State Fault Refusal := run entryCmpZpx.template s

/-- 0xD9: CMP abs,Y (R114). -/
def entryCmpAby : Entry := ⟨.cmp, .aby, .read, readTemplate .aby opCmp, some 4, .pageCross, 3, true⟩

/-- CMP abs,Y (R114). -/
def execCmpAby (s : State) : Host.Outcome State Fault Refusal := run entryCmpAby.template s

/-- 0xDD: CMP abs,X (R114). -/
def entryCmpAbx : Entry := ⟨.cmp, .abx, .read, readTemplate .abx opCmp, some 4, .pageCross, 3, true⟩

/-- CMP abs,X (R114). -/
def execCmpAbx (s : State) : Host.Outcome State Fault Refusal := run entryCmpAbx.template s

/-- 0xE0: CPX # (R115). -/
def entryCpxImm : Entry := ⟨.cpx, .imm, .read, tImm fun _ => opCpx, some 2, .none, 2, true⟩

/-- CPX # (R115). -/
def execCpxImm (s : State) : Host.Outcome State Fault Refusal := run entryCpxImm.template s

/-- 0xE4: CPX zp (R115). -/
def entryCpxZp : Entry := ⟨.cpx, .zp, .read, readTemplate .zp opCpx, some 3, .none, 2, true⟩

/-- CPX zp (R115). -/
def execCpxZp (s : State) : Host.Outcome State Fault Refusal := run entryCpxZp.template s

/-- 0xEC: CPX abs (R115). -/
def entryCpxAbs : Entry := ⟨.cpx, .abs, .read, readTemplate .abs opCpx, some 4, .none, 3, true⟩

/-- CPX abs (R115). -/
def execCpxAbs (s : State) : Host.Outcome State Fault Refusal := run entryCpxAbs.template s

/-- 0xC0: CPY # (R116). -/
def entryCpyImm : Entry := ⟨.cpy, .imm, .read, tImm fun _ => opCpy, some 2, .none, 2, true⟩

/-- CPY # (R116). -/
def execCpyImm (s : State) : Host.Outcome State Fault Refusal := run entryCpyImm.template s

/-- 0xC4: CPY zp (R116). -/
def entryCpyZp : Entry := ⟨.cpy, .zp, .read, readTemplate .zp opCpy, some 3, .none, 2, true⟩

/-- CPY zp (R116). -/
def execCpyZp (s : State) : Host.Outcome State Fault Refusal := run entryCpyZp.template s

/-- 0xCC: CPY abs (R116). -/
def entryCpyAbs : Entry := ⟨.cpy, .abs, .read, readTemplate .abs opCpy, some 4, .none, 3, true⟩

/-- CPY abs (R116). -/
def execCpyAbs (s : State) : Host.Outcome State Fault Refusal := run entryCpyAbs.template s

/-- 0x24: BIT zp (R117). -/
def entryBitZp : Entry := ⟨.bit, .zp, .read, readTemplate .zp opBit, some 3, .none, 2, true⟩

/-- BIT zp (R117). -/
def execBitZp (s : State) : Host.Outcome State Fault Refusal := run entryBitZp.template s

/-- 0x2C: BIT abs (R117). -/
def entryBitAbs : Entry := ⟨.bit, .abs, .read, readTemplate .abs opBit, some 4, .none, 3, true⟩

/-- BIT abs (R117). -/
def execBitAbs (s : State) : Host.Outcome State Fault Refusal := run entryBitAbs.template s

end Sys2Proof.Machine
end

