-- ==== Sys2Proof/Machine/FlagsNop.lean ====
section
/-! DEFINITION. Flag instructions and the official NOP (44_flags_nop). First the OperationSemantics of each mnemonic (40_sequencer R69), then for each
opcode its OpcodeTable entry (R104) and its meaning: the entry's template, run from the opcode fetch to the last
cycle. -/

namespace Sys2Proof.Machine

open Sys2Proof

/-- `ImpOp CLC` (R141). -/
def opClc : ImpOp := fun r => { r with c := false }

/-- `ImpOp SEC` (R142). -/
def opSec : ImpOp := fun r => { r with c := true }

/-- `ImpOp CLI` (R143). -/
def opCli : ImpOp := fun r => { r with i := false }

/-- `ImpOp SEI` (R144). -/
def opSei : ImpOp := fun r => { r with i := true }

/-- `ImpOp CLV` (R145). -/
def opClv : ImpOp := fun r => { r with v := false }

/-- `ImpOp CLD` (R146). -/
def opCld : ImpOp := fun r => { r with d := false }

/-- `ImpOp SED` (R147). -/
def opSed : ImpOp := fun r => { r with d := true }

/-- `ImpOp NOP` (R148, R188). -/
def opNop : ImpOp := fun r => r

/-! ## Entries and meanings -/

/-- 0x18: CLC (R141). -/
def entryClc : Entry := ⟨.clc, .imp, .implied, tImp opClc, some 2, .none, 1, true⟩

/-- CLC (R141). -/
def execClc (s : State) : Host.Outcome State Fault Refusal := run entryClc.template s

/-- 0x38: SEC (R142). -/
def entrySec : Entry := ⟨.sec, .imp, .implied, tImp opSec, some 2, .none, 1, true⟩

/-- SEC (R142). -/
def execSec (s : State) : Host.Outcome State Fault Refusal := run entrySec.template s

/-- 0x58: CLI (R143). -/
def entryCli : Entry := ⟨.cli, .imp, .implied, tImp opCli, some 2, .none, 1, true⟩

/-- CLI (R143). -/
def execCli (s : State) : Host.Outcome State Fault Refusal := run entryCli.template s

/-- 0x78: SEI (R144). -/
def entrySei : Entry := ⟨.sei, .imp, .implied, tImp opSei, some 2, .none, 1, true⟩

/-- SEI (R144). -/
def execSei (s : State) : Host.Outcome State Fault Refusal := run entrySei.template s

/-- 0xB8: CLV (R145). -/
def entryClv : Entry := ⟨.clv, .imp, .implied, tImp opClv, some 2, .none, 1, true⟩

/-- CLV (R145). -/
def execClv (s : State) : Host.Outcome State Fault Refusal := run entryClv.template s

/-- 0xD8: CLD (R146). -/
def entryCld : Entry := ⟨.cld, .imp, .implied, tImp opCld, some 2, .none, 1, true⟩

/-- CLD (R146). -/
def execCld (s : State) : Host.Outcome State Fault Refusal := run entryCld.template s

/-- 0xF8: SED (R147). -/
def entrySed : Entry := ⟨.sed, .imp, .implied, tImp opSed, some 2, .none, 1, true⟩

/-- SED (R147). -/
def execSed (s : State) : Host.Outcome State Fault Refusal := run entrySed.template s

/-- 0xEA: NOP (R148). -/
def entryNop : Entry := ⟨.nop, .imp, .implied, tImp opNop, some 2, .none, 1, true⟩

/-- NOP (R148). -/
def execNop (s : State) : Host.Outcome State Fault Refusal := run entryNop.template s

end Sys2Proof.Machine
end

