-- ==== Sys2Proof/Machine/Shift.lean ====
section
/-! DEFINITION. Shifts, rotates, increments and decrements (43_shift_incdec). First the OperationSemantics of each mnemonic (40_sequencer R69), then for each
opcode its OpcodeTable entry (R104) and its meaning: the entry's template, run from the opcode fetch to the last
cycle. -/

namespace Sys2Proof.Machine

open Sys2Proof

/-- An accumulator shift: the RmwOp applied to A. -/
def onA (op : RmwOp) : ImpOp := fun r => { (op r r.a).1 with a := (op r r.a).2 }

/-- `RmwOp ASL(m)` (R131). -/
def opAsl : RmwOp := shiftAsl

/-- `RmwOp LSR(m)` (R132). -/
def opLsr : RmwOp := shiftLsr

/-- `RmwOp ROL(m)` (R133). -/
def opRol : RmwOp := rotRol

/-- `RmwOp ROR(m)` (R134). -/
def opRor : RmwOp := rotRor

/-- `RmwOp INC(m)` (R135). -/
def opInc : RmwOp := fun r m => (r.setNZ (m + 1), m + 1)

/-- `RmwOp DEC(m)` (R136). -/
def opDec : RmwOp := fun r m => (r.setNZ (m - 1), m - 1)

/-- `ImpOp INX` (R137). -/
def opInx : ImpOp := fun r => { r with x := r.x + 1 }.setNZ (r.x + 1)

/-- `ImpOp INY` (R138). -/
def opIny : ImpOp := fun r => { r with y := r.y + 1 }.setNZ (r.y + 1)

/-- `ImpOp DEX` (R139). -/
def opDex : ImpOp := fun r => { r with x := r.x - 1 }.setNZ (r.x - 1)

/-- `ImpOp DEY` (R140). -/
def opDey : ImpOp := fun r => { r with y := r.y - 1 }.setNZ (r.y - 1)

/-! ## Entries and meanings -/

/-- 0x06: ASL zp (R131). -/
def entryAslZp : Entry := ⟨.asl, .zp, .rmw, rmwTemplate .zp opAsl, some 5, .none, 2, true⟩

/-- ASL zp (R131). -/
def execAslZp (s : State) : Host.Outcome State Fault Refusal := run entryAslZp.template s

/-- 0x0A: ASL A (R131). -/
def entryAslAcc : Entry := ⟨.asl, .acc, .implied, tImp (onA opAsl), some 2, .none, 1, true⟩

/-- ASL A (R131). -/
def execAslAcc (s : State) : Host.Outcome State Fault Refusal := run entryAslAcc.template s

/-- 0x0E: ASL abs (R131). -/
def entryAslAbs : Entry := ⟨.asl, .abs, .rmw, rmwTemplate .abs opAsl, some 6, .none, 3, true⟩

/-- ASL abs (R131). -/
def execAslAbs (s : State) : Host.Outcome State Fault Refusal := run entryAslAbs.template s

/-- 0x16: ASL zp,X (R131). -/
def entryAslZpx : Entry := ⟨.asl, .zpx, .rmw, rmwTemplate .zpx opAsl, some 6, .none, 2, true⟩

/-- ASL zp,X (R131). -/
def execAslZpx (s : State) : Host.Outcome State Fault Refusal := run entryAslZpx.template s

/-- 0x1E: ASL abs,X (R131). -/
def entryAslAbx : Entry := ⟨.asl, .abx, .rmw, rmwTemplate .abx opAsl, some 7, .none, 3, true⟩

/-- ASL abs,X (R131). -/
def execAslAbx (s : State) : Host.Outcome State Fault Refusal := run entryAslAbx.template s

/-- 0x46: LSR zp (R132). -/
def entryLsrZp : Entry := ⟨.lsr, .zp, .rmw, rmwTemplate .zp opLsr, some 5, .none, 2, true⟩

/-- LSR zp (R132). -/
def execLsrZp (s : State) : Host.Outcome State Fault Refusal := run entryLsrZp.template s

/-- 0x4A: LSR A (R132). -/
def entryLsrAcc : Entry := ⟨.lsr, .acc, .implied, tImp (onA opLsr), some 2, .none, 1, true⟩

/-- LSR A (R132). -/
def execLsrAcc (s : State) : Host.Outcome State Fault Refusal := run entryLsrAcc.template s

/-- 0x4E: LSR abs (R132). -/
def entryLsrAbs : Entry := ⟨.lsr, .abs, .rmw, rmwTemplate .abs opLsr, some 6, .none, 3, true⟩

/-- LSR abs (R132). -/
def execLsrAbs (s : State) : Host.Outcome State Fault Refusal := run entryLsrAbs.template s

/-- 0x56: LSR zp,X (R132). -/
def entryLsrZpx : Entry := ⟨.lsr, .zpx, .rmw, rmwTemplate .zpx opLsr, some 6, .none, 2, true⟩

/-- LSR zp,X (R132). -/
def execLsrZpx (s : State) : Host.Outcome State Fault Refusal := run entryLsrZpx.template s

/-- 0x5E: LSR abs,X (R132). -/
def entryLsrAbx : Entry := ⟨.lsr, .abx, .rmw, rmwTemplate .abx opLsr, some 7, .none, 3, true⟩

/-- LSR abs,X (R132). -/
def execLsrAbx (s : State) : Host.Outcome State Fault Refusal := run entryLsrAbx.template s

/-- 0x26: ROL zp (R133). -/
def entryRolZp : Entry := ⟨.rol, .zp, .rmw, rmwTemplate .zp opRol, some 5, .none, 2, true⟩

/-- ROL zp (R133). -/
def execRolZp (s : State) : Host.Outcome State Fault Refusal := run entryRolZp.template s

/-- 0x2A: ROL A (R133). -/
def entryRolAcc : Entry := ⟨.rol, .acc, .implied, tImp (onA opRol), some 2, .none, 1, true⟩

/-- ROL A (R133). -/
def execRolAcc (s : State) : Host.Outcome State Fault Refusal := run entryRolAcc.template s

/-- 0x2E: ROL abs (R133). -/
def entryRolAbs : Entry := ⟨.rol, .abs, .rmw, rmwTemplate .abs opRol, some 6, .none, 3, true⟩

/-- ROL abs (R133). -/
def execRolAbs (s : State) : Host.Outcome State Fault Refusal := run entryRolAbs.template s

/-- 0x36: ROL zp,X (R133). -/
def entryRolZpx : Entry := ⟨.rol, .zpx, .rmw, rmwTemplate .zpx opRol, some 6, .none, 2, true⟩

/-- ROL zp,X (R133). -/
def execRolZpx (s : State) : Host.Outcome State Fault Refusal := run entryRolZpx.template s

/-- 0x3E: ROL abs,X (R133). -/
def entryRolAbx : Entry := ⟨.rol, .abx, .rmw, rmwTemplate .abx opRol, some 7, .none, 3, true⟩

/-- ROL abs,X (R133). -/
def execRolAbx (s : State) : Host.Outcome State Fault Refusal := run entryRolAbx.template s

/-- 0x66: ROR zp (R134). -/
def entryRorZp : Entry := ⟨.ror, .zp, .rmw, rmwTemplate .zp opRor, some 5, .none, 2, true⟩

/-- ROR zp (R134). -/
def execRorZp (s : State) : Host.Outcome State Fault Refusal := run entryRorZp.template s

/-- 0x6A: ROR A (R134). -/
def entryRorAcc : Entry := ⟨.ror, .acc, .implied, tImp (onA opRor), some 2, .none, 1, true⟩

/-- ROR A (R134). -/
def execRorAcc (s : State) : Host.Outcome State Fault Refusal := run entryRorAcc.template s

/-- 0x6E: ROR abs (R134). -/
def entryRorAbs : Entry := ⟨.ror, .abs, .rmw, rmwTemplate .abs opRor, some 6, .none, 3, true⟩

/-- ROR abs (R134). -/
def execRorAbs (s : State) : Host.Outcome State Fault Refusal := run entryRorAbs.template s

/-- 0x76: ROR zp,X (R134). -/
def entryRorZpx : Entry := ⟨.ror, .zpx, .rmw, rmwTemplate .zpx opRor, some 6, .none, 2, true⟩

/-- ROR zp,X (R134). -/
def execRorZpx (s : State) : Host.Outcome State Fault Refusal := run entryRorZpx.template s

/-- 0x7E: ROR abs,X (R134). -/
def entryRorAbx : Entry := ⟨.ror, .abx, .rmw, rmwTemplate .abx opRor, some 7, .none, 3, true⟩

/-- ROR abs,X (R134). -/
def execRorAbx (s : State) : Host.Outcome State Fault Refusal := run entryRorAbx.template s

/-- 0xE6: INC zp (R135). -/
def entryIncZp : Entry := ⟨.inc, .zp, .rmw, rmwTemplate .zp opInc, some 5, .none, 2, true⟩

/-- INC zp (R135). -/
def execIncZp (s : State) : Host.Outcome State Fault Refusal := run entryIncZp.template s

/-- 0xEE: INC abs (R135). -/
def entryIncAbs : Entry := ⟨.inc, .abs, .rmw, rmwTemplate .abs opInc, some 6, .none, 3, true⟩

/-- INC abs (R135). -/
def execIncAbs (s : State) : Host.Outcome State Fault Refusal := run entryIncAbs.template s

/-- 0xF6: INC zp,X (R135). -/
def entryIncZpx : Entry := ⟨.inc, .zpx, .rmw, rmwTemplate .zpx opInc, some 6, .none, 2, true⟩

/-- INC zp,X (R135). -/
def execIncZpx (s : State) : Host.Outcome State Fault Refusal := run entryIncZpx.template s

/-- 0xFE: INC abs,X (R135). -/
def entryIncAbx : Entry := ⟨.inc, .abx, .rmw, rmwTemplate .abx opInc, some 7, .none, 3, true⟩

/-- INC abs,X (R135). -/
def execIncAbx (s : State) : Host.Outcome State Fault Refusal := run entryIncAbx.template s

/-- 0xC6: DEC zp (R136). -/
def entryDecZp : Entry := ⟨.dec, .zp, .rmw, rmwTemplate .zp opDec, some 5, .none, 2, true⟩

/-- DEC zp (R136). -/
def execDecZp (s : State) : Host.Outcome State Fault Refusal := run entryDecZp.template s

/-- 0xCE: DEC abs (R136). -/
def entryDecAbs : Entry := ⟨.dec, .abs, .rmw, rmwTemplate .abs opDec, some 6, .none, 3, true⟩

/-- DEC abs (R136). -/
def execDecAbs (s : State) : Host.Outcome State Fault Refusal := run entryDecAbs.template s

/-- 0xD6: DEC zp,X (R136). -/
def entryDecZpx : Entry := ⟨.dec, .zpx, .rmw, rmwTemplate .zpx opDec, some 6, .none, 2, true⟩

/-- DEC zp,X (R136). -/
def execDecZpx (s : State) : Host.Outcome State Fault Refusal := run entryDecZpx.template s

/-- 0xDE: DEC abs,X (R136). -/
def entryDecAbx : Entry := ⟨.dec, .abx, .rmw, rmwTemplate .abx opDec, some 7, .none, 3, true⟩

/-- DEC abs,X (R136). -/
def execDecAbx (s : State) : Host.Outcome State Fault Refusal := run entryDecAbx.template s

/-- 0xE8: INX (R137). -/
def entryInx : Entry := ⟨.inx, .imp, .implied, tImp opInx, some 2, .none, 1, true⟩

/-- INX (R137). -/
def execInx (s : State) : Host.Outcome State Fault Refusal := run entryInx.template s

/-- 0xC8: INY (R138). -/
def entryIny : Entry := ⟨.iny, .imp, .implied, tImp opIny, some 2, .none, 1, true⟩

/-- INY (R138). -/
def execIny (s : State) : Host.Outcome State Fault Refusal := run entryIny.template s

/-- 0xCA: DEX (R139). -/
def entryDex : Entry := ⟨.dex, .imp, .implied, tImp opDex, some 2, .none, 1, true⟩

/-- DEX (R139). -/
def execDex (s : State) : Host.Outcome State Fault Refusal := run entryDex.template s

/-- 0x88: DEY (R140). -/
def entryDey : Entry := ⟨.dey, .imp, .implied, tImp opDey, some 2, .none, 1, true⟩

/-- DEY (R140). -/
def execDey (s : State) : Host.Outcome State Fault Refusal := run entryDey.template s

end Sys2Proof.Machine
end

