-- ==== Sys2Proof/Machine/Unofficial.lean ====
section
/-! DEFINITION. The unofficial opcodes (47_unofficial). First the OperationSemantics of each mnemonic (40_sequencer R69), then for each
opcode its OpcodeTable entry (R104) and its meaning: the entry's template, run from the opcode fetch to the last
cycle. -/

namespace Sys2Proof.Machine

open Sys2Proof

/-- `RmwOp SLO = Compose(ASL, ORA)` (R168). -/
def opSlo : RmwOp := compose opAsl opOra

/-- `RmwOp RLA = Compose(ROL, AND)` (R169). -/
def opRla : RmwOp := compose opRol opAnd

/-- `RmwOp SRE = Compose(LSR, EOR)` (R170). -/
def opSre : RmwOp := compose opLsr opEor

/-- `RmwOp RRA = Compose(ROR, ADC)` (R171): the carry-in is the C the rotate set. -/
def opRra : RmwOp := compose opRor opAdc

/-- `WriteOp SAX()` (R172). -/
def opSax : WriteOp := fun r => r.a &&& r.x

/-- `ReadOp LAX(m)` (R173). -/
def opLax : ReadOp := fun r m => { r with a := m, x := m }.setNZ m

/-- `RmwOp DCP = Compose(DEC, CMP)` (R174). -/
def opDcp : RmwOp := compose opDec opCmp

/-- `RmwOp ISC = Compose(INC, SBC)` (R175). -/
def opIsc : RmwOp := compose opInc opSbc

/-- `ReadOp ANC(m)` (R176): C copies N. -/
def opAnc : ReadOp := fun r m => { r with a := r.a &&& m, c := (r.a &&& m).getLsbD 7 }.setNZ (r.a &&& m)

/-- `ReadOp ALR(m)` (R177). -/
def opAlr : ReadOp := fun r m => { (shiftLsr r (r.a &&& m)).1 with a := (shiftLsr r (r.a &&& m)).2 }

/-- The result of ARR (R178). -/
def arrResult (r : Regs) (m : Byte) : Byte := (r.a &&& m) >>> 1 ||| (BitVec.ofBool r.c).setWidth 8 <<< 7

/-- `ReadOp ARR(m)` (R178): C is bit 6 of the result, V is bit 6 xor bit 5; D is ignored (D30). -/
def opArr : ReadOp := fun r m =>
  let v := arrResult r m
  { r with a := v, c := v.getLsbD 6, v := v.getLsbD 6 ^^ v.getLsbD 5 }.setNZ v

/-- `ReadOp ANE(m)` (R179), with the parameter `P_MAGIC`. -/
def opAne (p : Config.Params) : ReadOp := fun r m =>
  let v := (r.a ||| p.magic) &&& r.x &&& m
  { r with a := v }.setNZ v

/-- `ReadOp LXA(m)` (R180), with the parameter `P_MAGIC`. -/
def opLxa (p : Config.Params) : ReadOp := fun r m =>
  let v := (r.a ||| p.magic) &&& m
  { r with a := v, x := v }.setNZ v

/-- `ReadOp SBX(m)` (R181): a compare-style subtraction; C is not read, V is unchanged. -/
def opSbx : ReadOp := fun r m =>
  let t := r.a &&& r.x
  { r with x := t - m, c := decide (m.toNat ≤ t.toNat) }.setNZ (t - m)

/-- `ReadOp USBC(m) = SBC(m)` (R182). -/
def opUsbc : ReadOp := subWithBorrow

/-- The register value SHA combines, `A & X` (R183). -/
def opSha : WriteOp := fun r => r.a &&& r.x

/-- The register value SHX combines (R184). -/
def opShx : WriteOp := fun r => r.x

/-- The register value SHY combines (R185). -/
def opShy : WriteOp := fun r => r.y

/-- The register value TAS combines, which is also the new S (R186). -/
def opTas : WriteOp := fun r => r.a &&& r.x

/-- `S <- A & X`, in the tick of TAS's store (R186). -/
def tasSetS : ImpOp := fun r => { r with s := r.a &&& r.x }

/-- `ReadOp LAS(m)` (R187). -/
def opLas : ReadOp := fun r m => { r with a := m &&& r.s, x := m &&& r.s, s := m &&& r.s }.setNZ (m &&& r.s)

/-- `ReadOp NOP(m)` (R188, R189): the byte is read and discarded. -/
def opNopRead : ReadOp := fun r _ => r

/-! ## Entries and meanings -/

/-- 0x03: SLO (zp,X) (R168). -/
def entrySloIzx : Entry := ⟨.slo, .izx, .rmw, rmwTemplate .izx opSlo, some 8, .none, 2, false⟩

/-- SLO (zp,X) (R168). -/
def execSloIzx (s : State) : Host.Outcome State Fault Refusal := run entrySloIzx.template s

/-- 0x07: SLO zp (R168). -/
def entrySloZp : Entry := ⟨.slo, .zp, .rmw, rmwTemplate .zp opSlo, some 5, .none, 2, false⟩

/-- SLO zp (R168). -/
def execSloZp (s : State) : Host.Outcome State Fault Refusal := run entrySloZp.template s

/-- 0x0F: SLO abs (R168). -/
def entrySloAbs : Entry := ⟨.slo, .abs, .rmw, rmwTemplate .abs opSlo, some 6, .none, 3, false⟩

/-- SLO abs (R168). -/
def execSloAbs (s : State) : Host.Outcome State Fault Refusal := run entrySloAbs.template s

/-- 0x13: SLO (zp),Y (R168). -/
def entrySloIzy : Entry := ⟨.slo, .izy, .rmw, rmwTemplate .izy opSlo, some 8, .none, 2, false⟩

/-- SLO (zp),Y (R168). -/
def execSloIzy (s : State) : Host.Outcome State Fault Refusal := run entrySloIzy.template s

/-- 0x17: SLO zp,X (R168). -/
def entrySloZpx : Entry := ⟨.slo, .zpx, .rmw, rmwTemplate .zpx opSlo, some 6, .none, 2, false⟩

/-- SLO zp,X (R168). -/
def execSloZpx (s : State) : Host.Outcome State Fault Refusal := run entrySloZpx.template s

/-- 0x1B: SLO abs,Y (R168). -/
def entrySloAby : Entry := ⟨.slo, .aby, .rmw, rmwTemplate .aby opSlo, some 7, .none, 3, false⟩

/-- SLO abs,Y (R168). -/
def execSloAby (s : State) : Host.Outcome State Fault Refusal := run entrySloAby.template s

/-- 0x1F: SLO abs,X (R168). -/
def entrySloAbx : Entry := ⟨.slo, .abx, .rmw, rmwTemplate .abx opSlo, some 7, .none, 3, false⟩

/-- SLO abs,X (R168). -/
def execSloAbx (s : State) : Host.Outcome State Fault Refusal := run entrySloAbx.template s

/-- 0x23: RLA (zp,X) (R169). -/
def entryRlaIzx : Entry := ⟨.rla, .izx, .rmw, rmwTemplate .izx opRla, some 8, .none, 2, false⟩

/-- RLA (zp,X) (R169). -/
def execRlaIzx (s : State) : Host.Outcome State Fault Refusal := run entryRlaIzx.template s

/-- 0x27: RLA zp (R169). -/
def entryRlaZp : Entry := ⟨.rla, .zp, .rmw, rmwTemplate .zp opRla, some 5, .none, 2, false⟩

/-- RLA zp (R169). -/
def execRlaZp (s : State) : Host.Outcome State Fault Refusal := run entryRlaZp.template s

/-- 0x2F: RLA abs (R169). -/
def entryRlaAbs : Entry := ⟨.rla, .abs, .rmw, rmwTemplate .abs opRla, some 6, .none, 3, false⟩

/-- RLA abs (R169). -/
def execRlaAbs (s : State) : Host.Outcome State Fault Refusal := run entryRlaAbs.template s

/-- 0x33: RLA (zp),Y (R169). -/
def entryRlaIzy : Entry := ⟨.rla, .izy, .rmw, rmwTemplate .izy opRla, some 8, .none, 2, false⟩

/-- RLA (zp),Y (R169). -/
def execRlaIzy (s : State) : Host.Outcome State Fault Refusal := run entryRlaIzy.template s

/-- 0x37: RLA zp,X (R169). -/
def entryRlaZpx : Entry := ⟨.rla, .zpx, .rmw, rmwTemplate .zpx opRla, some 6, .none, 2, false⟩

/-- RLA zp,X (R169). -/
def execRlaZpx (s : State) : Host.Outcome State Fault Refusal := run entryRlaZpx.template s

/-- 0x3B: RLA abs,Y (R169). -/
def entryRlaAby : Entry := ⟨.rla, .aby, .rmw, rmwTemplate .aby opRla, some 7, .none, 3, false⟩

/-- RLA abs,Y (R169). -/
def execRlaAby (s : State) : Host.Outcome State Fault Refusal := run entryRlaAby.template s

/-- 0x3F: RLA abs,X (R169). -/
def entryRlaAbx : Entry := ⟨.rla, .abx, .rmw, rmwTemplate .abx opRla, some 7, .none, 3, false⟩

/-- RLA abs,X (R169). -/
def execRlaAbx (s : State) : Host.Outcome State Fault Refusal := run entryRlaAbx.template s

/-- 0x43: SRE (zp,X) (R170). -/
def entrySreIzx : Entry := ⟨.sre, .izx, .rmw, rmwTemplate .izx opSre, some 8, .none, 2, false⟩

/-- SRE (zp,X) (R170). -/
def execSreIzx (s : State) : Host.Outcome State Fault Refusal := run entrySreIzx.template s

/-- 0x47: SRE zp (R170). -/
def entrySreZp : Entry := ⟨.sre, .zp, .rmw, rmwTemplate .zp opSre, some 5, .none, 2, false⟩

/-- SRE zp (R170). -/
def execSreZp (s : State) : Host.Outcome State Fault Refusal := run entrySreZp.template s

/-- 0x4F: SRE abs (R170). -/
def entrySreAbs : Entry := ⟨.sre, .abs, .rmw, rmwTemplate .abs opSre, some 6, .none, 3, false⟩

/-- SRE abs (R170). -/
def execSreAbs (s : State) : Host.Outcome State Fault Refusal := run entrySreAbs.template s

/-- 0x53: SRE (zp),Y (R170). -/
def entrySreIzy : Entry := ⟨.sre, .izy, .rmw, rmwTemplate .izy opSre, some 8, .none, 2, false⟩

/-- SRE (zp),Y (R170). -/
def execSreIzy (s : State) : Host.Outcome State Fault Refusal := run entrySreIzy.template s

/-- 0x57: SRE zp,X (R170). -/
def entrySreZpx : Entry := ⟨.sre, .zpx, .rmw, rmwTemplate .zpx opSre, some 6, .none, 2, false⟩

/-- SRE zp,X (R170). -/
def execSreZpx (s : State) : Host.Outcome State Fault Refusal := run entrySreZpx.template s

/-- 0x5B: SRE abs,Y (R170). -/
def entrySreAby : Entry := ⟨.sre, .aby, .rmw, rmwTemplate .aby opSre, some 7, .none, 3, false⟩

/-- SRE abs,Y (R170). -/
def execSreAby (s : State) : Host.Outcome State Fault Refusal := run entrySreAby.template s

/-- 0x5F: SRE abs,X (R170). -/
def entrySreAbx : Entry := ⟨.sre, .abx, .rmw, rmwTemplate .abx opSre, some 7, .none, 3, false⟩

/-- SRE abs,X (R170). -/
def execSreAbx (s : State) : Host.Outcome State Fault Refusal := run entrySreAbx.template s

/-- 0x63: RRA (zp,X) (R171). -/
def entryRraIzx : Entry := ⟨.rra, .izx, .rmw, rmwTemplate .izx opRra, some 8, .none, 2, false⟩

/-- RRA (zp,X) (R171). -/
def execRraIzx (s : State) : Host.Outcome State Fault Refusal := run entryRraIzx.template s

/-- 0x67: RRA zp (R171). -/
def entryRraZp : Entry := ⟨.rra, .zp, .rmw, rmwTemplate .zp opRra, some 5, .none, 2, false⟩

/-- RRA zp (R171). -/
def execRraZp (s : State) : Host.Outcome State Fault Refusal := run entryRraZp.template s

/-- 0x6F: RRA abs (R171). -/
def entryRraAbs : Entry := ⟨.rra, .abs, .rmw, rmwTemplate .abs opRra, some 6, .none, 3, false⟩

/-- RRA abs (R171). -/
def execRraAbs (s : State) : Host.Outcome State Fault Refusal := run entryRraAbs.template s

/-- 0x73: RRA (zp),Y (R171). -/
def entryRraIzy : Entry := ⟨.rra, .izy, .rmw, rmwTemplate .izy opRra, some 8, .none, 2, false⟩

/-- RRA (zp),Y (R171). -/
def execRraIzy (s : State) : Host.Outcome State Fault Refusal := run entryRraIzy.template s

/-- 0x77: RRA zp,X (R171). -/
def entryRraZpx : Entry := ⟨.rra, .zpx, .rmw, rmwTemplate .zpx opRra, some 6, .none, 2, false⟩

/-- RRA zp,X (R171). -/
def execRraZpx (s : State) : Host.Outcome State Fault Refusal := run entryRraZpx.template s

/-- 0x7B: RRA abs,Y (R171). -/
def entryRraAby : Entry := ⟨.rra, .aby, .rmw, rmwTemplate .aby opRra, some 7, .none, 3, false⟩

/-- RRA abs,Y (R171). -/
def execRraAby (s : State) : Host.Outcome State Fault Refusal := run entryRraAby.template s

/-- 0x7F: RRA abs,X (R171). -/
def entryRraAbx : Entry := ⟨.rra, .abx, .rmw, rmwTemplate .abx opRra, some 7, .none, 3, false⟩

/-- RRA abs,X (R171). -/
def execRraAbx (s : State) : Host.Outcome State Fault Refusal := run entryRraAbx.template s

/-- 0x83: SAX (zp,X) (R172). -/
def entrySaxIzx : Entry := ⟨.sax, .izx, .write, writeTemplate .izx opSax, some 6, .none, 2, false⟩

/-- SAX (zp,X) (R172). -/
def execSaxIzx (s : State) : Host.Outcome State Fault Refusal := run entrySaxIzx.template s

/-- 0x87: SAX zp (R172). -/
def entrySaxZp : Entry := ⟨.sax, .zp, .write, writeTemplate .zp opSax, some 3, .none, 2, false⟩

/-- SAX zp (R172). -/
def execSaxZp (s : State) : Host.Outcome State Fault Refusal := run entrySaxZp.template s

/-- 0x8F: SAX abs (R172). -/
def entrySaxAbs : Entry := ⟨.sax, .abs, .write, writeTemplate .abs opSax, some 4, .none, 3, false⟩

/-- SAX abs (R172). -/
def execSaxAbs (s : State) : Host.Outcome State Fault Refusal := run entrySaxAbs.template s

/-- 0x97: SAX zp,Y (R172). -/
def entrySaxZpy : Entry := ⟨.sax, .zpy, .write, writeTemplate .zpy opSax, some 4, .none, 2, false⟩

/-- SAX zp,Y (R172). -/
def execSaxZpy (s : State) : Host.Outcome State Fault Refusal := run entrySaxZpy.template s

/-- 0xA3: LAX (zp,X) (R173). -/
def entryLaxIzx : Entry := ⟨.lax, .izx, .read, readTemplate .izx opLax, some 6, .none, 2, false⟩

/-- LAX (zp,X) (R173). -/
def execLaxIzx (s : State) : Host.Outcome State Fault Refusal := run entryLaxIzx.template s

/-- 0xA7: LAX zp (R173). -/
def entryLaxZp : Entry := ⟨.lax, .zp, .read, readTemplate .zp opLax, some 3, .none, 2, false⟩

/-- LAX zp (R173). -/
def execLaxZp (s : State) : Host.Outcome State Fault Refusal := run entryLaxZp.template s

/-- 0xAF: LAX abs (R173). -/
def entryLaxAbs : Entry := ⟨.lax, .abs, .read, readTemplate .abs opLax, some 4, .none, 3, false⟩

/-- LAX abs (R173). -/
def execLaxAbs (s : State) : Host.Outcome State Fault Refusal := run entryLaxAbs.template s

/-- 0xB3: LAX (zp),Y (R173). -/
def entryLaxIzy : Entry := ⟨.lax, .izy, .read, readTemplate .izy opLax, some 5, .pageCross, 2, false⟩

/-- LAX (zp),Y (R173). -/
def execLaxIzy (s : State) : Host.Outcome State Fault Refusal := run entryLaxIzy.template s

/-- 0xB7: LAX zp,Y (R173). -/
def entryLaxZpy : Entry := ⟨.lax, .zpy, .read, readTemplate .zpy opLax, some 4, .none, 2, false⟩

/-- LAX zp,Y (R173). -/
def execLaxZpy (s : State) : Host.Outcome State Fault Refusal := run entryLaxZpy.template s

/-- 0xBF: LAX abs,Y (R173). -/
def entryLaxAby : Entry := ⟨.lax, .aby, .read, readTemplate .aby opLax, some 4, .pageCross, 3, false⟩

/-- LAX abs,Y (R173). -/
def execLaxAby (s : State) : Host.Outcome State Fault Refusal := run entryLaxAby.template s

/-- 0xC3: DCP (zp,X) (R174). -/
def entryDcpIzx : Entry := ⟨.dcp, .izx, .rmw, rmwTemplate .izx opDcp, some 8, .none, 2, false⟩

/-- DCP (zp,X) (R174). -/
def execDcpIzx (s : State) : Host.Outcome State Fault Refusal := run entryDcpIzx.template s

/-- 0xC7: DCP zp (R174). -/
def entryDcpZp : Entry := ⟨.dcp, .zp, .rmw, rmwTemplate .zp opDcp, some 5, .none, 2, false⟩

/-- DCP zp (R174). -/
def execDcpZp (s : State) : Host.Outcome State Fault Refusal := run entryDcpZp.template s

/-- 0xCF: DCP abs (R174). -/
def entryDcpAbs : Entry := ⟨.dcp, .abs, .rmw, rmwTemplate .abs opDcp, some 6, .none, 3, false⟩

/-- DCP abs (R174). -/
def execDcpAbs (s : State) : Host.Outcome State Fault Refusal := run entryDcpAbs.template s

/-- 0xD3: DCP (zp),Y (R174). -/
def entryDcpIzy : Entry := ⟨.dcp, .izy, .rmw, rmwTemplate .izy opDcp, some 8, .none, 2, false⟩

/-- DCP (zp),Y (R174). -/
def execDcpIzy (s : State) : Host.Outcome State Fault Refusal := run entryDcpIzy.template s

/-- 0xD7: DCP zp,X (R174). -/
def entryDcpZpx : Entry := ⟨.dcp, .zpx, .rmw, rmwTemplate .zpx opDcp, some 6, .none, 2, false⟩

/-- DCP zp,X (R174). -/
def execDcpZpx (s : State) : Host.Outcome State Fault Refusal := run entryDcpZpx.template s

/-- 0xDB: DCP abs,Y (R174). -/
def entryDcpAby : Entry := ⟨.dcp, .aby, .rmw, rmwTemplate .aby opDcp, some 7, .none, 3, false⟩

/-- DCP abs,Y (R174). -/
def execDcpAby (s : State) : Host.Outcome State Fault Refusal := run entryDcpAby.template s

/-- 0xDF: DCP abs,X (R174). -/
def entryDcpAbx : Entry := ⟨.dcp, .abx, .rmw, rmwTemplate .abx opDcp, some 7, .none, 3, false⟩

/-- DCP abs,X (R174). -/
def execDcpAbx (s : State) : Host.Outcome State Fault Refusal := run entryDcpAbx.template s

/-- 0xE3: ISC (zp,X) (R175). -/
def entryIscIzx : Entry := ⟨.isc, .izx, .rmw, rmwTemplate .izx opIsc, some 8, .none, 2, false⟩

/-- ISC (zp,X) (R175). -/
def execIscIzx (s : State) : Host.Outcome State Fault Refusal := run entryIscIzx.template s

/-- 0xE7: ISC zp (R175). -/
def entryIscZp : Entry := ⟨.isc, .zp, .rmw, rmwTemplate .zp opIsc, some 5, .none, 2, false⟩

/-- ISC zp (R175). -/
def execIscZp (s : State) : Host.Outcome State Fault Refusal := run entryIscZp.template s

/-- 0xEF: ISC abs (R175). -/
def entryIscAbs : Entry := ⟨.isc, .abs, .rmw, rmwTemplate .abs opIsc, some 6, .none, 3, false⟩

/-- ISC abs (R175). -/
def execIscAbs (s : State) : Host.Outcome State Fault Refusal := run entryIscAbs.template s

/-- 0xF3: ISC (zp),Y (R175). -/
def entryIscIzy : Entry := ⟨.isc, .izy, .rmw, rmwTemplate .izy opIsc, some 8, .none, 2, false⟩

/-- ISC (zp),Y (R175). -/
def execIscIzy (s : State) : Host.Outcome State Fault Refusal := run entryIscIzy.template s

/-- 0xF7: ISC zp,X (R175). -/
def entryIscZpx : Entry := ⟨.isc, .zpx, .rmw, rmwTemplate .zpx opIsc, some 6, .none, 2, false⟩

/-- ISC zp,X (R175). -/
def execIscZpx (s : State) : Host.Outcome State Fault Refusal := run entryIscZpx.template s

/-- 0xFB: ISC abs,Y (R175). -/
def entryIscAby : Entry := ⟨.isc, .aby, .rmw, rmwTemplate .aby opIsc, some 7, .none, 3, false⟩

/-- ISC abs,Y (R175). -/
def execIscAby (s : State) : Host.Outcome State Fault Refusal := run entryIscAby.template s

/-- 0xFF: ISC abs,X (R175). -/
def entryIscAbx : Entry := ⟨.isc, .abx, .rmw, rmwTemplate .abx opIsc, some 7, .none, 3, false⟩

/-- ISC abs,X (R175). -/
def execIscAbx (s : State) : Host.Outcome State Fault Refusal := run entryIscAbx.template s

/-- 0x0B, 0x2B: ANC # (R176). -/
def entryAnc : Entry := ⟨.anc, .imm, .read, tImm fun _ => opAnc, some 2, .none, 2, false⟩

/-- ANC # (R176). -/
def execAnc (s : State) : Host.Outcome State Fault Refusal := run entryAnc.template s

/-- 0x4B: ALR # (R177). -/
def entryAlr : Entry := ⟨.alr, .imm, .read, tImm fun _ => opAlr, some 2, .none, 2, false⟩

/-- ALR # (R177). -/
def execAlr (s : State) : Host.Outcome State Fault Refusal := run entryAlr.template s

/-- 0x6B: ARR # (R178). -/
def entryArr : Entry := ⟨.arr, .imm, .read, tImm fun _ => opArr, some 2, .none, 2, false⟩

/-- ARR # (R178). -/
def execArr (s : State) : Host.Outcome State Fault Refusal := run entryArr.template s

/-- 0x8B: ANE # (R179). -/
def entryAne : Entry := ⟨.ane, .imm, .read, tImm opAne, some 2, .none, 2, false⟩

/-- ANE # (R179). -/
def execAne (s : State) : Host.Outcome State Fault Refusal := run entryAne.template s

/-- 0xAB: LXA # (R180). -/
def entryLxa : Entry := ⟨.lxa, .imm, .read, tImm opLxa, some 2, .none, 2, false⟩

/-- LXA # (R180). -/
def execLxa (s : State) : Host.Outcome State Fault Refusal := run entryLxa.template s

/-- 0xCB: SBX # (R181). -/
def entrySbx : Entry := ⟨.sbx, .imm, .read, tImm fun _ => opSbx, some 2, .none, 2, false⟩

/-- SBX # (R181). -/
def execSbx (s : State) : Host.Outcome State Fault Refusal := run entrySbx.template s

/-- 0xEB: USBC # (R182). -/
def entryUsbc : Entry := ⟨.usbc, .imm, .read, tImm fun _ => opUsbc, some 2, .none, 2, false⟩

/-- USBC # (R182). -/
def execUsbc (s : State) : Host.Outcome State Fault Refusal := run entryUsbc.template s

/-- 0x93: SHA (zp),Y (R183). -/
def entryShaIzy : Entry := ⟨.sha, .izy, .write, tIzyW (unstableStore opSha), some 6, .none, 2, false⟩

/-- SHA (zp),Y (R183). -/
def execShaIzy (s : State) : Host.Outcome State Fault Refusal := run entryShaIzy.template s

/-- 0x9F: SHA abs,Y (R183). -/
def entryShaAby : Entry := ⟨.sha, .aby, .write, tAbiW regY (unstableStore opSha), some 5, .none, 3, false⟩

/-- SHA abs,Y (R183). -/
def execShaAby (s : State) : Host.Outcome State Fault Refusal := run entryShaAby.template s

/-- 0x9E: SHX abs,Y (R184). -/
def entryShx : Entry := ⟨.shx, .aby, .write, tAbiW regY (unstableStore opShx), some 5, .none, 3, false⟩

/-- SHX abs,Y (R184). -/
def execShx (s : State) : Host.Outcome State Fault Refusal := run entryShx.template s

/-- 0x9C: SHY abs,X (R185). -/
def entryShy : Entry := ⟨.shy, .abx, .write, tAbiW regX (unstableStore opShy), some 5, .none, 3, false⟩

/-- SHY abs,X (R185). -/
def execShy (s : State) : Host.Outcome State Fault Refusal := run entryShy.template s

/-- 0x9B: TAS abs,Y (R186). -/
def entryTas : Entry := ⟨.tas, .aby, .write, tAbiW regY (unstableStore opTas tasSetS), some 5, .none, 3, false⟩

/-- TAS abs,Y (R186). -/
def execTas (s : State) : Host.Outcome State Fault Refusal := run entryTas.template s

/-- 0xBB: LAS abs,Y (R187). -/
def entryLas : Entry := ⟨.las, .aby, .read, readTemplate .aby opLas, some 4, .pageCross, 3, false⟩

/-- LAS abs,Y (R187). -/
def execLas (s : State) : Host.Outcome State Fault Refusal := run entryLas.template s

/-- 0x04, 0x44, 0x64: NOP zp (R189). -/
def entryNopZp : Entry := ⟨.nop, .zp, .read, readTemplate .zp opNopRead, some 3, .none, 2, false⟩

/-- NOP zp (R189). -/
def execNopZp (s : State) : Host.Outcome State Fault Refusal := run entryNopZp.template s

/-- 0x0C: NOP abs (R189). -/
def entryNopAbs : Entry := ⟨.nop, .abs, .read, readTemplate .abs opNopRead, some 4, .none, 3, false⟩

/-- NOP abs (R189). -/
def execNopAbs (s : State) : Host.Outcome State Fault Refusal := run entryNopAbs.template s

/-- 0x14, 0x34, 0x54, 0x74, 0xD4, 0xF4: NOP zp,X (R189). -/
def entryNopZpx : Entry := ⟨.nop, .zpx, .read, readTemplate .zpx opNopRead, some 4, .none, 2, false⟩

/-- NOP zp,X (R189). -/
def execNopZpx (s : State) : Host.Outcome State Fault Refusal := run entryNopZpx.template s

/-- 0x1A, 0x3A, 0x5A, 0x7A, 0xDA, 0xFA: NOP (R188). -/
def entryNopImp : Entry := ⟨.nop, .imp, .implied, tImp opNop, some 2, .none, 1, false⟩

/-- NOP (R188). -/
def execNopImp (s : State) : Host.Outcome State Fault Refusal := run entryNopImp.template s

/-- 0x1C, 0x3C, 0x5C, 0x7C, 0xDC, 0xFC: NOP abs,X (R189). -/
def entryNopAbx : Entry := ⟨.nop, .abx, .read, readTemplate .abx opNopRead, some 4, .pageCross, 3, false⟩

/-- NOP abs,X (R189). -/
def execNopAbx (s : State) : Host.Outcome State Fault Refusal := run entryNopAbx.template s

/-- 0x80, 0x82, 0x89, 0xC2, 0xE2: NOP # (R188). -/
def entryNopImm : Entry := ⟨.nop, .imm, .read, tImm fun _ => opNopRead, some 2, .none, 2, false⟩

/-- NOP # (R188). -/
def execNopImm (s : State) : Host.Outcome State Fault Refusal := run entryNopImm.template s

/-- 0x02, 0x12, 0x22, 0x32, 0x42, 0x52, 0x62, 0x72, 0x92, 0xB2, 0xD2, 0xF2: JAM (R190). -/
def entryJam : Entry := ⟨.jam, .imp, .halt, tJam, none, .none, 1, false⟩

/-- JAM (R190). -/
def execJam (s : State) : Host.Outcome State Fault Refusal := run entryJam.template s

end Sys2Proof.Machine
end

