-- ==== Sys2Proof/Machine/OpcodeTable.lean ====
section
/-! DEFINITION. The OpcodeTable (40_sequencer R104): the entry of every opcode, and what the construction check
(R107) counts in it. -/

namespace Sys2Proof.Machine

open Sys2Proof

/-- The OpcodeTable entry of an instruction. -/
def entryOf : Instr → Entry
  | .brk _ => entryBrk
  | .oraIzx _ => entryOraIzx
  | .jam _ => entryJam
  | .sloIzx _ => entrySloIzx
  | .nopZp _ _ => entryNopZp
  | .oraZp _ => entryOraZp
  | .aslZp _ => entryAslZp
  | .sloZp _ => entrySloZp
  | .php => entryPhp
  | .oraImm _ => entryOraImm
  | .aslAcc => entryAslAcc
  | .anc _ _ => entryAnc
  | .nopAbs _ => entryNopAbs
  | .oraAbs _ => entryOraAbs
  | .aslAbs _ => entryAslAbs
  | .sloAbs _ => entrySloAbs
  | .bpl _ => entryBpl
  | .oraIzy _ => entryOraIzy
  | .sloIzy _ => entrySloIzy
  | .nopZpx _ _ => entryNopZpx
  | .oraZpx _ => entryOraZpx
  | .aslZpx _ => entryAslZpx
  | .sloZpx _ => entrySloZpx
  | .clc => entryClc
  | .oraAby _ => entryOraAby
  | .nopImp _ => entryNopImp
  | .sloAby _ => entrySloAby
  | .nopAbx _ _ => entryNopAbx
  | .oraAbx _ => entryOraAbx
  | .aslAbx _ => entryAslAbx
  | .sloAbx _ => entrySloAbx
  | .jsr _ => entryJsr
  | .andIzx _ => entryAndIzx
  | .rlaIzx _ => entryRlaIzx
  | .bitZp _ => entryBitZp
  | .andZp _ => entryAndZp
  | .rolZp _ => entryRolZp
  | .rlaZp _ => entryRlaZp
  | .plp => entryPlp
  | .andImm _ => entryAndImm
  | .rolAcc => entryRolAcc
  | .bitAbs _ => entryBitAbs
  | .andAbs _ => entryAndAbs
  | .rolAbs _ => entryRolAbs
  | .rlaAbs _ => entryRlaAbs
  | .bmi _ => entryBmi
  | .andIzy _ => entryAndIzy
  | .rlaIzy _ => entryRlaIzy
  | .andZpx _ => entryAndZpx
  | .rolZpx _ => entryRolZpx
  | .rlaZpx _ => entryRlaZpx
  | .sec => entrySec
  | .andAby _ => entryAndAby
  | .rlaAby _ => entryRlaAby
  | .andAbx _ => entryAndAbx
  | .rolAbx _ => entryRolAbx
  | .rlaAbx _ => entryRlaAbx
  | .rti => entryRti
  | .eorIzx _ => entryEorIzx
  | .sreIzx _ => entrySreIzx
  | .eorZp _ => entryEorZp
  | .lsrZp _ => entryLsrZp
  | .sreZp _ => entrySreZp
  | .pha => entryPha
  | .eorImm _ => entryEorImm
  | .lsrAcc => entryLsrAcc
  | .alr _ => entryAlr
  | .jmpAbs _ => entryJmpAbs
  | .eorAbs _ => entryEorAbs
  | .lsrAbs _ => entryLsrAbs
  | .sreAbs _ => entrySreAbs
  | .bvc _ => entryBvc
  | .eorIzy _ => entryEorIzy
  | .sreIzy _ => entrySreIzy
  | .eorZpx _ => entryEorZpx
  | .lsrZpx _ => entryLsrZpx
  | .sreZpx _ => entrySreZpx
  | .cli => entryCli
  | .eorAby _ => entryEorAby
  | .sreAby _ => entrySreAby
  | .eorAbx _ => entryEorAbx
  | .lsrAbx _ => entryLsrAbx
  | .sreAbx _ => entrySreAbx
  | .rts => entryRts
  | .adcIzx _ => entryAdcIzx
  | .rraIzx _ => entryRraIzx
  | .adcZp _ => entryAdcZp
  | .rorZp _ => entryRorZp
  | .rraZp _ => entryRraZp
  | .pla => entryPla
  | .adcImm _ => entryAdcImm
  | .rorAcc => entryRorAcc
  | .arr _ => entryArr
  | .jmpInd _ => entryJmpInd
  | .adcAbs _ => entryAdcAbs
  | .rorAbs _ => entryRorAbs
  | .rraAbs _ => entryRraAbs
  | .bvs _ => entryBvs
  | .adcIzy _ => entryAdcIzy
  | .rraIzy _ => entryRraIzy
  | .adcZpx _ => entryAdcZpx
  | .rorZpx _ => entryRorZpx
  | .rraZpx _ => entryRraZpx
  | .sei => entrySei
  | .adcAby _ => entryAdcAby
  | .rraAby _ => entryRraAby
  | .adcAbx _ => entryAdcAbx
  | .rorAbx _ => entryRorAbx
  | .rraAbx _ => entryRraAbx
  | .nopImm _ _ => entryNopImm
  | .staIzx _ => entryStaIzx
  | .saxIzx _ => entrySaxIzx
  | .styZp _ => entryStyZp
  | .staZp _ => entryStaZp
  | .stxZp _ => entryStxZp
  | .saxZp _ => entrySaxZp
  | .dey => entryDey
  | .txa => entryTxa
  | .ane _ => entryAne
  | .styAbs _ => entryStyAbs
  | .staAbs _ => entryStaAbs
  | .stxAbs _ => entryStxAbs
  | .saxAbs _ => entrySaxAbs
  | .bcc _ => entryBcc
  | .staIzy _ => entryStaIzy
  | .shaIzy _ => entryShaIzy
  | .styZpx _ => entryStyZpx
  | .staZpx _ => entryStaZpx
  | .stxZpy _ => entryStxZpy
  | .saxZpy _ => entrySaxZpy
  | .tya => entryTya
  | .staAby _ => entryStaAby
  | .txs => entryTxs
  | .tas _ => entryTas
  | .shy _ => entryShy
  | .staAbx _ => entryStaAbx
  | .shx _ => entryShx
  | .shaAby _ => entryShaAby
  | .ldyImm _ => entryLdyImm
  | .ldaIzx _ => entryLdaIzx
  | .ldxImm _ => entryLdxImm
  | .laxIzx _ => entryLaxIzx
  | .ldyZp _ => entryLdyZp
  | .ldaZp _ => entryLdaZp
  | .ldxZp _ => entryLdxZp
  | .laxZp _ => entryLaxZp
  | .tay => entryTay
  | .ldaImm _ => entryLdaImm
  | .tax => entryTax
  | .lxa _ => entryLxa
  | .ldyAbs _ => entryLdyAbs
  | .ldaAbs _ => entryLdaAbs
  | .ldxAbs _ => entryLdxAbs
  | .laxAbs _ => entryLaxAbs
  | .bcs _ => entryBcs
  | .ldaIzy _ => entryLdaIzy
  | .laxIzy _ => entryLaxIzy
  | .ldyZpx _ => entryLdyZpx
  | .ldaZpx _ => entryLdaZpx
  | .ldxZpy _ => entryLdxZpy
  | .laxZpy _ => entryLaxZpy
  | .clv => entryClv
  | .ldaAby _ => entryLdaAby
  | .tsx => entryTsx
  | .las _ => entryLas
  | .ldyAbx _ => entryLdyAbx
  | .ldaAbx _ => entryLdaAbx
  | .ldxAby _ => entryLdxAby
  | .laxAby _ => entryLaxAby
  | .cpyImm _ => entryCpyImm
  | .cmpIzx _ => entryCmpIzx
  | .dcpIzx _ => entryDcpIzx
  | .cpyZp _ => entryCpyZp
  | .cmpZp _ => entryCmpZp
  | .decZp _ => entryDecZp
  | .dcpZp _ => entryDcpZp
  | .iny => entryIny
  | .cmpImm _ => entryCmpImm
  | .dex => entryDex
  | .sbx _ => entrySbx
  | .cpyAbs _ => entryCpyAbs
  | .cmpAbs _ => entryCmpAbs
  | .decAbs _ => entryDecAbs
  | .dcpAbs _ => entryDcpAbs
  | .bne _ => entryBne
  | .cmpIzy _ => entryCmpIzy
  | .dcpIzy _ => entryDcpIzy
  | .cmpZpx _ => entryCmpZpx
  | .decZpx _ => entryDecZpx
  | .dcpZpx _ => entryDcpZpx
  | .cld => entryCld
  | .cmpAby _ => entryCmpAby
  | .dcpAby _ => entryDcpAby
  | .cmpAbx _ => entryCmpAbx
  | .decAbx _ => entryDecAbx
  | .dcpAbx _ => entryDcpAbx
  | .cpxImm _ => entryCpxImm
  | .sbcIzx _ => entrySbcIzx
  | .iscIzx _ => entryIscIzx
  | .cpxZp _ => entryCpxZp
  | .sbcZp _ => entrySbcZp
  | .incZp _ => entryIncZp
  | .iscZp _ => entryIscZp
  | .inx => entryInx
  | .sbcImm _ => entrySbcImm
  | .nop => entryNop
  | .usbc _ => entryUsbc
  | .cpxAbs _ => entryCpxAbs
  | .sbcAbs _ => entrySbcAbs
  | .incAbs _ => entryIncAbs
  | .iscAbs _ => entryIscAbs
  | .beq _ => entryBeq
  | .sbcIzy _ => entrySbcIzy
  | .iscIzy _ => entryIscIzy
  | .sbcZpx _ => entrySbcZpx
  | .incZpx _ => entryIncZpx
  | .iscZpx _ => entryIscZpx
  | .sed => entrySed
  | .sbcAby _ => entrySbcAby
  | .iscAby _ => entryIscAby
  | .sbcAbx _ => entrySbcAbx
  | .incAbx _ => entryIncAbx
  | .iscAbx _ => entryIscAbx

/-- The entry the table holds at an opcode byte. -/
def entryAt (op : Byte) : Entry := entryOf (ofBytes op 0 0)

/-- The table: 256 entries indexed by opcode byte, built once (R104). -/
def opcodeTable : List Entry := (List.range 256).map fun k => entryAt (BitVec.ofNat 8 k)

/-- `Template(opcode, synthetic)` of the state (R68). -/
def State.template (s : State) : Template := if s.synthetic then tBrk else (entryAt s.opcode).template

/-- The number of cycles up to and including the first that can be last. -/
def baseCycles : List Descr → Nat
  | [] => 0
  | d :: ds =>
    match d.last with
    | .never => 1 + baseCycles ds
    | .always => 1
    | .when _ => 1

/-- The base cycle count of a template, cycle 1 among them (R105); none for the halt. -/
def Template.baseCount : Template → Option Nat
  | .halt => none
  | .cycles _ ds => some (1 + baseCycles ds)

/-- The cycles a template has beyond its base count: its conditional ones (R105). -/
def Template.extraCount : Template → Nat
  | .halt => 0
  | .cycles _ ds => ds.length - baseCycles ds

/-- The number of `fetch` cycles, cycle 1 among them (R106); BRK's cycle 2 is one (D20). -/
def Template.fetchCount : Template → Nat
  | .halt => 1
  | .cycles _ ds => 1 + (ds.filter fun d => d.fetch != .no).length

/-- The extra cycles a penalty stands for at most (R105). -/
def Penalty.most : Penalty → Nat
  | .none => 0
  | .pageCross => 1
  | .branch => 2

end Sys2Proof.Machine
end

