-- ==== Sys2Proof/Machine/Dispatch.lean ====
section
/-! DEFINITION. One arm per instruction. The operand bytes play no part here: the template fetches them from the
Bus cycle by cycle (30_encoding R62; log 11). -/

namespace Sys2Proof.Machine

open Sys2Proof

def exec (i : Instr) (s : State) : Host.Outcome State Fault Refusal :=
  match i with
  | .brk _ => Sys2Proof.Machine.execBrk s
  | .oraIzx _ => Sys2Proof.Machine.execOraIzx s
  | .jam _ => Sys2Proof.Machine.execJam s
  | .sloIzx _ => Sys2Proof.Machine.execSloIzx s
  | .nopZp _ _ => Sys2Proof.Machine.execNopZp s
  | .oraZp _ => Sys2Proof.Machine.execOraZp s
  | .aslZp _ => Sys2Proof.Machine.execAslZp s
  | .sloZp _ => Sys2Proof.Machine.execSloZp s
  | .php => Sys2Proof.Machine.execPhp s
  | .oraImm _ => Sys2Proof.Machine.execOraImm s
  | .aslAcc => Sys2Proof.Machine.execAslAcc s
  | .anc _ _ => Sys2Proof.Machine.execAnc s
  | .nopAbs _ => Sys2Proof.Machine.execNopAbs s
  | .oraAbs _ => Sys2Proof.Machine.execOraAbs s
  | .aslAbs _ => Sys2Proof.Machine.execAslAbs s
  | .sloAbs _ => Sys2Proof.Machine.execSloAbs s
  | .bpl _ => Sys2Proof.Machine.execBpl s
  | .oraIzy _ => Sys2Proof.Machine.execOraIzy s
  | .sloIzy _ => Sys2Proof.Machine.execSloIzy s
  | .nopZpx _ _ => Sys2Proof.Machine.execNopZpx s
  | .oraZpx _ => Sys2Proof.Machine.execOraZpx s
  | .aslZpx _ => Sys2Proof.Machine.execAslZpx s
  | .sloZpx _ => Sys2Proof.Machine.execSloZpx s
  | .clc => Sys2Proof.Machine.execClc s
  | .oraAby _ => Sys2Proof.Machine.execOraAby s
  | .nopImp _ => Sys2Proof.Machine.execNopImp s
  | .sloAby _ => Sys2Proof.Machine.execSloAby s
  | .nopAbx _ _ => Sys2Proof.Machine.execNopAbx s
  | .oraAbx _ => Sys2Proof.Machine.execOraAbx s
  | .aslAbx _ => Sys2Proof.Machine.execAslAbx s
  | .sloAbx _ => Sys2Proof.Machine.execSloAbx s
  | .jsr _ => Sys2Proof.Machine.execJsr s
  | .andIzx _ => Sys2Proof.Machine.execAndIzx s
  | .rlaIzx _ => Sys2Proof.Machine.execRlaIzx s
  | .bitZp _ => Sys2Proof.Machine.execBitZp s
  | .andZp _ => Sys2Proof.Machine.execAndZp s
  | .rolZp _ => Sys2Proof.Machine.execRolZp s
  | .rlaZp _ => Sys2Proof.Machine.execRlaZp s
  | .plp => Sys2Proof.Machine.execPlp s
  | .andImm _ => Sys2Proof.Machine.execAndImm s
  | .rolAcc => Sys2Proof.Machine.execRolAcc s
  | .bitAbs _ => Sys2Proof.Machine.execBitAbs s
  | .andAbs _ => Sys2Proof.Machine.execAndAbs s
  | .rolAbs _ => Sys2Proof.Machine.execRolAbs s
  | .rlaAbs _ => Sys2Proof.Machine.execRlaAbs s
  | .bmi _ => Sys2Proof.Machine.execBmi s
  | .andIzy _ => Sys2Proof.Machine.execAndIzy s
  | .rlaIzy _ => Sys2Proof.Machine.execRlaIzy s
  | .andZpx _ => Sys2Proof.Machine.execAndZpx s
  | .rolZpx _ => Sys2Proof.Machine.execRolZpx s
  | .rlaZpx _ => Sys2Proof.Machine.execRlaZpx s
  | .sec => Sys2Proof.Machine.execSec s
  | .andAby _ => Sys2Proof.Machine.execAndAby s
  | .rlaAby _ => Sys2Proof.Machine.execRlaAby s
  | .andAbx _ => Sys2Proof.Machine.execAndAbx s
  | .rolAbx _ => Sys2Proof.Machine.execRolAbx s
  | .rlaAbx _ => Sys2Proof.Machine.execRlaAbx s
  | .rti => Sys2Proof.Machine.execRti s
  | .eorIzx _ => Sys2Proof.Machine.execEorIzx s
  | .sreIzx _ => Sys2Proof.Machine.execSreIzx s
  | .eorZp _ => Sys2Proof.Machine.execEorZp s
  | .lsrZp _ => Sys2Proof.Machine.execLsrZp s
  | .sreZp _ => Sys2Proof.Machine.execSreZp s
  | .pha => Sys2Proof.Machine.execPha s
  | .eorImm _ => Sys2Proof.Machine.execEorImm s
  | .lsrAcc => Sys2Proof.Machine.execLsrAcc s
  | .alr _ => Sys2Proof.Machine.execAlr s
  | .jmpAbs _ => Sys2Proof.Machine.execJmpAbs s
  | .eorAbs _ => Sys2Proof.Machine.execEorAbs s
  | .lsrAbs _ => Sys2Proof.Machine.execLsrAbs s
  | .sreAbs _ => Sys2Proof.Machine.execSreAbs s
  | .bvc _ => Sys2Proof.Machine.execBvc s
  | .eorIzy _ => Sys2Proof.Machine.execEorIzy s
  | .sreIzy _ => Sys2Proof.Machine.execSreIzy s
  | .eorZpx _ => Sys2Proof.Machine.execEorZpx s
  | .lsrZpx _ => Sys2Proof.Machine.execLsrZpx s
  | .sreZpx _ => Sys2Proof.Machine.execSreZpx s
  | .cli => Sys2Proof.Machine.execCli s
  | .eorAby _ => Sys2Proof.Machine.execEorAby s
  | .sreAby _ => Sys2Proof.Machine.execSreAby s
  | .eorAbx _ => Sys2Proof.Machine.execEorAbx s
  | .lsrAbx _ => Sys2Proof.Machine.execLsrAbx s
  | .sreAbx _ => Sys2Proof.Machine.execSreAbx s
  | .rts => Sys2Proof.Machine.execRts s
  | .adcIzx _ => Sys2Proof.Machine.execAdcIzx s
  | .rraIzx _ => Sys2Proof.Machine.execRraIzx s
  | .adcZp _ => Sys2Proof.Machine.execAdcZp s
  | .rorZp _ => Sys2Proof.Machine.execRorZp s
  | .rraZp _ => Sys2Proof.Machine.execRraZp s
  | .pla => Sys2Proof.Machine.execPla s
  | .adcImm _ => Sys2Proof.Machine.execAdcImm s
  | .rorAcc => Sys2Proof.Machine.execRorAcc s
  | .arr _ => Sys2Proof.Machine.execArr s
  | .jmpInd _ => Sys2Proof.Machine.execJmpInd s
  | .adcAbs _ => Sys2Proof.Machine.execAdcAbs s
  | .rorAbs _ => Sys2Proof.Machine.execRorAbs s
  | .rraAbs _ => Sys2Proof.Machine.execRraAbs s
  | .bvs _ => Sys2Proof.Machine.execBvs s
  | .adcIzy _ => Sys2Proof.Machine.execAdcIzy s
  | .rraIzy _ => Sys2Proof.Machine.execRraIzy s
  | .adcZpx _ => Sys2Proof.Machine.execAdcZpx s
  | .rorZpx _ => Sys2Proof.Machine.execRorZpx s
  | .rraZpx _ => Sys2Proof.Machine.execRraZpx s
  | .sei => Sys2Proof.Machine.execSei s
  | .adcAby _ => Sys2Proof.Machine.execAdcAby s
  | .rraAby _ => Sys2Proof.Machine.execRraAby s
  | .adcAbx _ => Sys2Proof.Machine.execAdcAbx s
  | .rorAbx _ => Sys2Proof.Machine.execRorAbx s
  | .rraAbx _ => Sys2Proof.Machine.execRraAbx s
  | .nopImm _ _ => Sys2Proof.Machine.execNopImm s
  | .staIzx _ => Sys2Proof.Machine.execStaIzx s
  | .saxIzx _ => Sys2Proof.Machine.execSaxIzx s
  | .styZp _ => Sys2Proof.Machine.execStyZp s
  | .staZp _ => Sys2Proof.Machine.execStaZp s
  | .stxZp _ => Sys2Proof.Machine.execStxZp s
  | .saxZp _ => Sys2Proof.Machine.execSaxZp s
  | .dey => Sys2Proof.Machine.execDey s
  | .txa => Sys2Proof.Machine.execTxa s
  | .ane _ => Sys2Proof.Machine.execAne s
  | .styAbs _ => Sys2Proof.Machine.execStyAbs s
  | .staAbs _ => Sys2Proof.Machine.execStaAbs s
  | .stxAbs _ => Sys2Proof.Machine.execStxAbs s
  | .saxAbs _ => Sys2Proof.Machine.execSaxAbs s
  | .bcc _ => Sys2Proof.Machine.execBcc s
  | .staIzy _ => Sys2Proof.Machine.execStaIzy s
  | .shaIzy _ => Sys2Proof.Machine.execShaIzy s
  | .styZpx _ => Sys2Proof.Machine.execStyZpx s
  | .staZpx _ => Sys2Proof.Machine.execStaZpx s
  | .stxZpy _ => Sys2Proof.Machine.execStxZpy s
  | .saxZpy _ => Sys2Proof.Machine.execSaxZpy s
  | .tya => Sys2Proof.Machine.execTya s
  | .staAby _ => Sys2Proof.Machine.execStaAby s
  | .txs => Sys2Proof.Machine.execTxs s
  | .tas _ => Sys2Proof.Machine.execTas s
  | .shy _ => Sys2Proof.Machine.execShy s
  | .staAbx _ => Sys2Proof.Machine.execStaAbx s
  | .shx _ => Sys2Proof.Machine.execShx s
  | .shaAby _ => Sys2Proof.Machine.execShaAby s
  | .ldyImm _ => Sys2Proof.Machine.execLdyImm s
  | .ldaIzx _ => Sys2Proof.Machine.execLdaIzx s
  | .ldxImm _ => Sys2Proof.Machine.execLdxImm s
  | .laxIzx _ => Sys2Proof.Machine.execLaxIzx s
  | .ldyZp _ => Sys2Proof.Machine.execLdyZp s
  | .ldaZp _ => Sys2Proof.Machine.execLdaZp s
  | .ldxZp _ => Sys2Proof.Machine.execLdxZp s
  | .laxZp _ => Sys2Proof.Machine.execLaxZp s
  | .tay => Sys2Proof.Machine.execTay s
  | .ldaImm _ => Sys2Proof.Machine.execLdaImm s
  | .tax => Sys2Proof.Machine.execTax s
  | .lxa _ => Sys2Proof.Machine.execLxa s
  | .ldyAbs _ => Sys2Proof.Machine.execLdyAbs s
  | .ldaAbs _ => Sys2Proof.Machine.execLdaAbs s
  | .ldxAbs _ => Sys2Proof.Machine.execLdxAbs s
  | .laxAbs _ => Sys2Proof.Machine.execLaxAbs s
  | .bcs _ => Sys2Proof.Machine.execBcs s
  | .ldaIzy _ => Sys2Proof.Machine.execLdaIzy s
  | .laxIzy _ => Sys2Proof.Machine.execLaxIzy s
  | .ldyZpx _ => Sys2Proof.Machine.execLdyZpx s
  | .ldaZpx _ => Sys2Proof.Machine.execLdaZpx s
  | .ldxZpy _ => Sys2Proof.Machine.execLdxZpy s
  | .laxZpy _ => Sys2Proof.Machine.execLaxZpy s
  | .clv => Sys2Proof.Machine.execClv s
  | .ldaAby _ => Sys2Proof.Machine.execLdaAby s
  | .tsx => Sys2Proof.Machine.execTsx s
  | .las _ => Sys2Proof.Machine.execLas s
  | .ldyAbx _ => Sys2Proof.Machine.execLdyAbx s
  | .ldaAbx _ => Sys2Proof.Machine.execLdaAbx s
  | .ldxAby _ => Sys2Proof.Machine.execLdxAby s
  | .laxAby _ => Sys2Proof.Machine.execLaxAby s
  | .cpyImm _ => Sys2Proof.Machine.execCpyImm s
  | .cmpIzx _ => Sys2Proof.Machine.execCmpIzx s
  | .dcpIzx _ => Sys2Proof.Machine.execDcpIzx s
  | .cpyZp _ => Sys2Proof.Machine.execCpyZp s
  | .cmpZp _ => Sys2Proof.Machine.execCmpZp s
  | .decZp _ => Sys2Proof.Machine.execDecZp s
  | .dcpZp _ => Sys2Proof.Machine.execDcpZp s
  | .iny => Sys2Proof.Machine.execIny s
  | .cmpImm _ => Sys2Proof.Machine.execCmpImm s
  | .dex => Sys2Proof.Machine.execDex s
  | .sbx _ => Sys2Proof.Machine.execSbx s
  | .cpyAbs _ => Sys2Proof.Machine.execCpyAbs s
  | .cmpAbs _ => Sys2Proof.Machine.execCmpAbs s
  | .decAbs _ => Sys2Proof.Machine.execDecAbs s
  | .dcpAbs _ => Sys2Proof.Machine.execDcpAbs s
  | .bne _ => Sys2Proof.Machine.execBne s
  | .cmpIzy _ => Sys2Proof.Machine.execCmpIzy s
  | .dcpIzy _ => Sys2Proof.Machine.execDcpIzy s
  | .cmpZpx _ => Sys2Proof.Machine.execCmpZpx s
  | .decZpx _ => Sys2Proof.Machine.execDecZpx s
  | .dcpZpx _ => Sys2Proof.Machine.execDcpZpx s
  | .cld => Sys2Proof.Machine.execCld s
  | .cmpAby _ => Sys2Proof.Machine.execCmpAby s
  | .dcpAby _ => Sys2Proof.Machine.execDcpAby s
  | .cmpAbx _ => Sys2Proof.Machine.execCmpAbx s
  | .decAbx _ => Sys2Proof.Machine.execDecAbx s
  | .dcpAbx _ => Sys2Proof.Machine.execDcpAbx s
  | .cpxImm _ => Sys2Proof.Machine.execCpxImm s
  | .sbcIzx _ => Sys2Proof.Machine.execSbcIzx s
  | .iscIzx _ => Sys2Proof.Machine.execIscIzx s
  | .cpxZp _ => Sys2Proof.Machine.execCpxZp s
  | .sbcZp _ => Sys2Proof.Machine.execSbcZp s
  | .incZp _ => Sys2Proof.Machine.execIncZp s
  | .iscZp _ => Sys2Proof.Machine.execIscZp s
  | .inx => Sys2Proof.Machine.execInx s
  | .sbcImm _ => Sys2Proof.Machine.execSbcImm s
  | .nop => Sys2Proof.Machine.execNop s
  | .usbc _ => Sys2Proof.Machine.execUsbc s
  | .cpxAbs _ => Sys2Proof.Machine.execCpxAbs s
  | .sbcAbs _ => Sys2Proof.Machine.execSbcAbs s
  | .incAbs _ => Sys2Proof.Machine.execIncAbs s
  | .iscAbs _ => Sys2Proof.Machine.execIscAbs s
  | .beq _ => Sys2Proof.Machine.execBeq s
  | .sbcIzy _ => Sys2Proof.Machine.execSbcIzy s
  | .iscIzy _ => Sys2Proof.Machine.execIscIzy s
  | .sbcZpx _ => Sys2Proof.Machine.execSbcZpx s
  | .incZpx _ => Sys2Proof.Machine.execIncZpx s
  | .iscZpx _ => Sys2Proof.Machine.execIscZpx s
  | .sed => Sys2Proof.Machine.execSed s
  | .sbcAby _ => Sys2Proof.Machine.execSbcAby s
  | .iscAby _ => Sys2Proof.Machine.execIscAby s
  | .sbcAbx _ => Sys2Proof.Machine.execSbcAbx s
  | .incAbx _ => Sys2Proof.Machine.execIncAbx s
  | .iscAbx _ => Sys2Proof.Machine.execIscAbx s

end Sys2Proof.Machine
end

