-- ==== Sys2Proof/Machine/Tick.lean ====
section
/-! DEFINITION. The tick: one call of the step entry point of the core (40_sequencer R65), and what the
instruction-level step is built from. -/

namespace Sys2Proof.Machine

open Sys2Proof

/-- `Tick()` (40_sequencer R65, R66): one micro-cycle. At `t = 0` the service latch decides between the interrupt
entry and an opcode fetch; else cycle `t + 1` of the active template runs. This is the operation `step()` of the
host table (60_exceptions R206). -/
def tick (s : State) : Host.Outcome State Fault Refusal :=
  if s.t = 0 then .next (if s.intRequested then beginEntry s else beginFetch s) else cycle s.template s

/-- `n` ticks. -/
def ticks : Nat → State → Host.Outcome State Fault Refusal
  | 0, s => .next s
  | n + 1, s =>
    match tick s with
    | .next s' => ticks n s'
    | .fault r => .fault r
    | .refused r => .refused r

/-- At most `n` ticks, up to the first that ends a sequence (`t = 0`). -/
def ticksToBoundary : Nat → State → Host.Outcome State Fault Refusal
  | 0, s => .next s
  | n + 1, s =>
    match tick s with
    | .next s' => if s'.t = 0 then .next s' else ticksToBoundary n s'
    | .fault r => .fault r
    | .refused r => .refused r

/-- The instruction whose bytes stand at PC. Only its opcode decides what runs; the template fetches the operand
bytes itself, cycle by cycle (30_encoding R62). No bus event: the bus answers are looked at, not read. -/
def fetchInstr (s : State) : Instr := ofBytes (s.peek s.pc) (s.peek (s.pc + 1)) (s.peek (s.pc + 2))

/-- The hardware interrupt entry (60_exceptions R199, R201): all of it from `t = 0`, else the rest of it. -/
def takeInterrupt (s : State) : Host.Outcome State Fault Refusal := finish tBrk 8 (if s.t = 0 then beginEntry s else s)

/-- The state with byte `v` at address `a`, where a device gives way to RAM at that one address. -/
def State.place (s : State) (a : Word) (v : Byte) : State :=
  { s with
    bus :=
      { s.bus with
        mem := s.bus.mem.write a.toNat v
        regions :=
          match s.bus.kindAt a with
          | .device => { base := a.toNat, size := 1, kind := .ram } :: s.bus.regions
          | .ram => s.bus.regions
          | .rom => s.bus.regions } }

/-- The state between instructions, with no interrupt to be serviced, and the bytes at PC. -/
def State.placeInstr (s : State) (b0 b1 b2 : Byte) : State :=
  (({ s with t := 0, intRequested := false }.place s.pc b0).place (s.pc + 1) b1).place (s.pc + 2) b2

end Sys2Proof.Machine
end

