-- ==== Sys2Proof/Machine/Step.lean ====
section
/-! DEFINITION. The instruction-level step: the ticks of one whole sequence (log 1). -/

namespace Sys2Proof.Machine

open Sys2Proof

/-- Between instructions: the interrupt entry if the service latch is set (40_sequencer R66), else the instruction at
PC, whole. Within a sequence: the rest of it. Its ticks are those of `tick`; a JAM stays where it is (R103). -/
def step (s : State) : Host.Outcome State Fault Refusal :=
  if s.t = 0 then (if s.intRequested then takeInterrupt s else exec (fetchInstr s) s)
  else if s.synthetic then takeInterrupt s
  else exec (ofBytes s.opcode 0 0) s

/-- The state with the instruction whose table bits are `w` at PC, about to be fetched by the next step. -/
def State.withFetchWord (s : State) (nbits w : Nat) : State :=
  s.placeInstr (tableByte (w % 2 ^ nbits) 0) (tableByte (w % 2 ^ nbits) 1) (tableByte (w % 2 ^ nbits) 2)

end Sys2Proof.Machine
end

