-- ==== Sys2Proof/Machine/HostOps.lean ====
section
/-! DEFINITION. The host interface (60_exceptions R206): every operation the host, the IRQ requesters, the NMI driver
and a DMA stage may make, each a transition between ticks (00_scope R12, D32). -/

namespace Sys2Proof.Machine

open Sys2Proof

/-- `setNmiLine(v)` (R191): a 1 to 0 transition latches the NMI; the latch is never cleared here. -/
def State.setNmiLine (s : State) (v : Bool) : State :=
  { s with nmiPending := s.nmiPending || (s.nmiLine && !v), nmiLine := v }

/-- `getNmiLine()` (R195). -/
def State.getNmiLine (s : State) : Bool := s.nmiLine

/-- `getIrqLine()` (R195, D34): the wired-OR of the sources. -/
def State.getIrqLine (s : State) : Bool := decide (0 < s.irqAsserted.length)

/-- The set with `src`, as a strictly rising list. -/
def addSource : List Nat → Nat → List Nat
  | [], src => [src]
  | x :: xs, src => if src < x then src :: x :: xs else if src = x then x :: xs else x :: addSource xs src

/-- The set without `src`. -/
def removeSource (srcs : List Nat) (src : Nat) : List Nat := srcs.filter fun x => x != src

/-- `request(src)` (R192). -/
def State.request (s : State) (src : Nat) : State := { s with irqAsserted := addSource s.irqAsserted src }

/-- `acknowledge(src)` (R193): a requester withdraws its request. -/
def State.acknowledge (s : State) (src : Nat) : State := { s with irqAsserted := removeSource s.irqAsserted src }

/-- `reset()` (70_reset R216): the two vector reads, low byte first, outside any tick; A, X, Y, N, V, D, Z, C,
`nmiLine` and `irqAsserted` keep their values. -/
def State.resetEntry (s : State) : State :=
  let afterLo := s.bus.read 0 resetVector
  { s.clearScratch with
    pc := mkWord (afterLo.answer (resetVector + 1)) (s.bus.answer resetVector)
    regs := { s.regs with s := 0xFD, i := true }
    t := 0
    opcode := 0x00
    synthetic := false
    nmiPending := false
    intRequested := false
    bus := afterLo.read 0 (resetVector + 1) }

/-- The registers right after power-on (10_state R35, 70_reset R217): S and I are set by the reset entry point that
follows. -/
def powerOnRegs : Config.PowerOn → Regs
  | .zero => { a := 0, x := 0, y := 0, s := 0, n := false, v := false, d := false, i := false, z := false, c := false }
  | .draw a x y n v d z c => { a := a, x := x, y := y, s := 0, n := n, v := v, d := d, i := false, z := z, c := c }

/-- Power-on (70_reset R217): the created state, then the reset entry point, over the platform's bus. -/
def powerOn (p : Config.Params) (w : Config.PowerOn) (b : Bus) : State :=
  State.resetEntry
    { params := p, regs := powerOnRegs w, pc := 0, opcode := 0, t := 0, synthetic := false, operand := 0, addrLo := 0,
      addrHi := 0, ptrLo := 0, ptrHi := 0, pageCross := false, vector := 0, nmiLine := true, nmiPending := false,
      irqAsserted := [], intRequested := false, bus := b }

/-- A DMA stage reads address `a` between ticks (20_memory R49). -/
def State.dmaRead (s : State) (a : Word) : State :=
  { s with bus := s.bus.log { cycle := 0, kind := .dmaRead, addr := a, value := s.bus.answer a } }

/-- A DMA stage writes `v` to address `a` between ticks (20_memory R49). -/
def State.dmaWrite (s : State) (a : Word) (v : Byte) : State :=
  { s with bus := { s.bus with mem := s.bus.memAfter a v }.log { cycle := 0, kind := .dmaWrite, addr := a, value := v } }

/-- An operation of the outside world between ticks (60_exceptions R206, 20_memory R49); the getters change nothing
and are functions. -/
inductive HostOp where
  | step
  | reset
  | setNmiLine (v : Bool)
  | request (src : Nat)
  | acknowledge (src : Nat)
  | dmaRead (a : Word)
  | dmaWrite (a : Word) (v : Byte)
deriving DecidableEq, Repr

/-- One operation. -/
def hostStep (o : HostOp) (s : State) : Host.Outcome State Fault Refusal :=
  match o with
  | .step => tick s
  | .reset => .next s.resetEntry
  | .setNmiLine v => .next (s.setNmiLine v)
  | .request src => .next (s.request src)
  | .acknowledge src => .next (s.acknowledge src)
  | .dmaRead a => .next (s.dmaRead a)
  | .dmaWrite a v => .next (s.dmaWrite a v)

/-- The operations in order. -/
def hostRun : List HostOp → State → Host.Outcome State Fault Refusal
  | [], s => .next s
  | o :: os, s =>
    match hostStep o s with
    | .next s' => hostRun os s'
    | .fault r => .fault r
    | .refused r => .refused r

end Sys2Proof.Machine
end

