-- ==== Sys2Proof/Machine/Operands.lean ====
section
/-! DEFINITION. The operand forms as 30_encoding R55 to R57 give them: effective addresses, page crossings and
branch targets, from the operand and the state before the instruction. The templates compute the same cycle by
cycle (Machine/Templates.lean). -/

namespace Sys2Proof.Machine

open Sys2Proof

/-- The word a zero-page pointer at `p` holds: both bytes in page zero, `{MemRead((p+1) mod 256), MemRead(p)}`
(R55, 20_memory R47). -/
def State.zpWord (s : State) (p : Byte) : Word := mkWord (s.peek (zeroPage (p + 1))) (s.peek (zeroPage p))

/-- The word an absolute-indirect pointer holds: its high byte comes from the pointer's own page (R55,
40_sequencer R96). -/
def State.indWord (s : State) (p : Word) : Word :=
  mkWord (s.peek (mkWord (hiByte p) (loByte p + 1))) (s.peek p)

/-- `PCnext` of a branch: the address of its opcode + 2 (R57). -/
def State.pcNext (s : State) : Word := s.pc + 2

/-- The target of a branch at `s.pc` with offset `off` (R55, R57). -/
def State.relTarget (s : State) (off : Byte) : Word := s.pcNext + sext16 off

end Sys2Proof.Machine

namespace Sys2Proof

open Sys2Proof.Machine

/-- The effective address of an operand in memory (R55); none for a form without one. -/
def Operand.effAddr (o : Operand) (s : State) : Option Word :=
  match o with
  | .imp => none
  | .acc => none
  | .imm _ => none
  | .zp b => some (zeroPage b)
  | .zpx b => some (zeroPage (b + s.regs.x))
  | .zpy b => some (zeroPage (b + s.regs.y))
  | .abs w => some w
  | .abx w => some (w + s.regs.x.setWidth 16)
  | .aby w => some (w + s.regs.y.setWidth 16)
  | .ind _ => none
  | .izx p => some (s.zpWord (p + s.regs.x))
  | .izy p => some (s.zpWord p + s.regs.y.setWidth 16)
  | .rel _ => none
  | .pad _ => none

/-- Whether the index addition carries into the high byte (R56). -/
def Operand.crosses (o : Operand) (s : State) : Bool :=
  match o with
  | .abx w => indexCarry (loByte w) s.regs.x
  | .aby w => indexCarry (loByte w) s.regs.y
  | .izy p => indexCarry (loByte (s.zpWord p)) s.regs.y
  | _ => false

/-- The byte a reading instruction takes: the immediate, or the byte at the effective address. -/
def Operand.value (o : Operand) (s : State) : Byte :=
  match o with
  | .imm b => b
  | o => (o.effAddr s).elim 0 s.peek

end Sys2Proof
end

