-- ==== Sys2Proof/WellFormed.lean ====
section
/-! DEFINITION. Well-formedness. No encoding is reserved or illegal (30_encoding R61): every opcode value with any
operand bytes is an instruction. What can be ill-formed is a term that carries an opcode byte of another row, and an
OpcodeTable entry that fails the construction check of 40_sequencer R107. -/

namespace Sys2Proof.Machine

open Sys2Proof

/-- R107, the cycle count: the sequence's base cycle count is the expected one; JAM, which has no finite count, is
exempt (D16). -/
def Entry.cyclesOk (e : Entry) : Bool :=
  match e.template with
  | .halt => e.cycles == none
  | .cycles _ _ => e.template.baseCount == e.cycles

/-- R105: the conditional cycles are those the penalty stands for. -/
def Entry.penaltyOk (e : Entry) : Bool := e.template.extraCount == e.penalty.most

/-- R107, the byte length: the number of fetch cycles is the expected length (R106). -/
def Entry.bytesOk (e : Entry) : Bool := e.template.fetchCount == e.bytes

/-- The construction check of one entry (R107). -/
def Entry.wellFormed (e : Entry) : Bool := e.cyclesOk && e.penaltyOk && e.bytesOk

/-- The construction check of a table: 256 entries, each of which passes. A table that fails is refused: no core is
built from it (R107, 00_scope R13). -/
def tableOk (t : List Entry) : Bool := t.length == 256 && t.all Entry.wellFormed

end Sys2Proof.Machine

namespace Sys2Proof

/-- The opcode bytes a term that carries one may hold: those the map R59 gives its mnemonic and mode. A term that
carries none has nothing to check. -/
def Instr.variantOk : Instr → Bool
  | .jam op => [0x02, 0x12, 0x22, 0x32, 0x42, 0x52, 0x62, 0x72, 0x92, 0xB2, 0xD2, 0xF2].contains op
  | .nopZp op _ => [0x04, 0x44, 0x64].contains op
  | .anc op _ => [0x0B, 0x2B].contains op
  | .nopZpx op _ => [0x14, 0x34, 0x54, 0x74, 0xD4, 0xF4].contains op
  | .nopImp op => [0x1A, 0x3A, 0x5A, 0x7A, 0xDA, 0xFA].contains op
  | .nopAbx op _ => [0x1C, 0x3C, 0x5C, 0x7C, 0xDC, 0xFC].contains op
  | .nopImm op _ => [0x80, 0x82, 0x89, 0xC2, 0xE2].contains op
  | _ => true

/-- An instruction is well-formed when the opcode byte it carries is one of its own and its OpcodeTable entry passes
the construction check. -/
def Instr.wellFormed (i : Instr) : Bool := i.variantOk && (Machine.entryOf i).wellFormed

end Sys2Proof
end

