-- ==== Sys2Proof/Safety.lean ====
section
/-! DEFINITION. The terms claims are stated in: the invariant of every run, the plain-memory premise of 20_memory R41,
where an instruction stands, what it leaves, and the bus accesses it makes. -/

namespace Sys2Proof.Machine

open Sys2Proof

/-! ## The invariant -/

/-- The sources are a set: a strictly rising list (log 2). -/
def rising : List Nat → Bool
  | [] => true
  | [_] => true
  | x :: y :: l => decide (x < y) && rising (y :: l)

/-- Whether cycle `t + 1` is a cycle of the sequence after its first (10_state R30): the halt stays at `t = 1`. -/
def Template.hasCycle (T : Template) (t : Nat) : Bool :=
  match T with
  | .halt => t == 1
  | .cycles _ ds => decide (1 ≤ t) && decide (t ≤ ds.length)

/-- What holds of every state a run can reach: memory in canonical form, the IRQ sources a set, and `t` between
instructions or within the active sequence (10_state R30). -/
structure Invariant (s : State) : Prop where
  memory  : s.bus.mem.wf = true
  sources : rising s.irqAsserted = true
  cycle   : s.t = 0 ∨ s.template.hasCycle s.t.val = true

/-- A JAM has been fetched (47_unofficial R190). -/
def State.jammed (s : State) : Prop := s.t ≠ 0 ∧ s.synthetic = false ∧ (entryAt s.opcode).mnemonic = .jam

/-! ## Premises about memory -/

/-- No device stands at `a`: a read of it returns what memory holds (20_memory R41, "a claim that needs plain memory
states it as a premise"). -/
abbrev State.PlainAt (s : State) (a : Word) : Prop := s.bus.kindAt a ≠ .device

/-- The bytes stand at consecutive addresses from `a` (mod 65536, 30_encoding R54), where no device is. -/
def BytesAt (s : State) : Word → List Byte → Prop
  | _, [] => True
  | a, b :: bs => s.PlainAt a ∧ s.peek a = b ∧ BytesAt s (a + 1) bs

/-- The instruction stands at PC. -/
def CodeAt (i : Instr) (s : State) : Prop := BytesAt s s.pc (encode i)

/-- The bytes of the operand's pointer, if it has one, are no device's. -/
def PointerPlain (o : Operand) (s : State) : Prop :=
  match o with
  | .izx p => s.PlainAt (zeroPage (p + s.regs.x)) ∧ s.PlainAt (zeroPage (p + s.regs.x + 1))
  | .izy p => s.PlainAt (zeroPage p) ∧ s.PlainAt (zeroPage (p + 1))
  | .ind p => s.PlainAt p ∧ s.PlainAt (mkWord (hiByte p) (loByte p + 1))
  | _ => True

/-- The operand's byte in memory, if it has one, is no device's. -/
def DataPlain (o : Operand) (s : State) : Prop := ∀ a, o.effAddr s = some a → s.PlainAt a

/-- The machine is between instructions, memory is in canonical form, the instruction stands at PC, and its pointer is
plain memory. -/
def Ready (i : Instr) (s : State) : Prop :=
  s.t = 0 ∧ s.bus.mem.wf = true ∧ CodeAt i s ∧ PointerPlain i.operand s

/-! ## What an instruction leaves -/

/-- Memory, as a function of the address, after `v` is written at `a`: only RAM changes. -/
def stored (s : State) (mem : Word → Byte) (a : Word) (v : Byte) : Word → Byte :=
  fun x => if x = a ∧ s.bus.kindAt a = .ram then v else mem x

/-- Every byte of `t` that is not a device's reads as `mem` says. -/
def MemIs (s t : State) (mem : Word → Byte) : Prop := ∀ a, s.PlainAt a → t.peek a = mem a

/-- The answer a poll gives in `s` (60_exceptions R197). -/
def State.pollAnswer (s : State) : Bool := s.nmiPending || s.irqPending

/-- A sequence begun in `s` has ended in `t`, with these registers, this PC and this service latch, and has left alone
the parameters, the platform's map, the NMI line and the IRQ sources. -/
structure Settled (s t : State) (r : Regs) (pc : Word) (latch : Bool) : Prop where
  done    : t.t = 0
  regs    : t.regs = r
  pc      : t.pc = pc
  latch   : t.intRequested = latch
  params  : t.params = s.params
  map     : t.bus.regions = s.bus.regions
  nmiLine : t.nmiLine = s.nmiLine
  sources : t.irqAsserted = s.irqAsserted

/-- `exec i s` answers a next state in which the instruction is complete, with these registers, this PC and this
memory; the latch holds the answer of a poll with the flags as they were before it, and a pending NMI stays. -/
def Completes (i : Instr) (s : State) (r : Regs) (pc : Word) (mem : Word → Byte) : Prop :=
  ∃ t, exec i s = .next t ∧ Settled s t r pc s.pollAnswer ∧ t.nmiPending = s.nmiPending ∧ MemIs s t mem

/-- The address after the instruction. -/
def State.pcAfter (s : State) (i : Instr) : Word := s.pc + BitVec.ofNat 16 i.length

/-- The well-formed instructions of mnemonic `m` are those of these opcode bytes, in these modes (30_encoding R59). -/
def Encoded (m : Mnemonic) (rows : List (Byte × Mode)) : Prop :=
  ∀ i : Instr, i.wellFormed = true → (i.mnemonic = m ↔ (i.opcode, i.operand.mode) ∈ rows)

/-! ## The bus accesses -/

/-- The bus after these accesses, one a cycle, the first in cycle `c` (20_memory R39). -/
def Bus.after (b : Bus) : (c : Nat) → List Access → Bus
  | _, [] => b
  | c, .read a :: l => (b.read c a).after (c + 1) l
  | c, .write a v :: l => (b.write c a v).after (c + 1) l

/-- The address before the high byte is corrected: the base's page with the low byte of the indexed sum (40_sequencer
R85, R91). -/
def uncorrected (base : Word) (ix : Byte) : Word := mkWord (hiByte base) (loByte base + ix)

/-- The accesses before the operand's own (40_sequencer R74 to R93): the opcode, the operand bytes, the pointer, and
the dummy reads. `always` is whether an indexed mode reads the uncorrected address when no page is crossed (writes and
RMW do, reads do not). -/
def leadAccesses (o : Operand) (s : State) (always : Bool) : List Access :=
  match o with
  | .imp => [.read s.pc, .read (s.pc + 1)]
  | .acc => [.read s.pc, .read (s.pc + 1)]
  | .imm _ => [.read s.pc, .read (s.pc + 1)]
  | .zp _ => [.read s.pc, .read (s.pc + 1)]
  | .zpx b => [.read s.pc, .read (s.pc + 1), .read (zeroPage b)]
  | .zpy b => [.read s.pc, .read (s.pc + 1), .read (zeroPage b)]
  | .abs _ => [.read s.pc, .read (s.pc + 1), .read (s.pc + 2)]
  | .abx w => [.read s.pc, .read (s.pc + 1), .read (s.pc + 2)] ++
      (if always || o.crosses s then [.read (uncorrected w s.regs.x)] else [])
  | .aby w => [.read s.pc, .read (s.pc + 1), .read (s.pc + 2)] ++
      (if always || o.crosses s then [.read (uncorrected w s.regs.y)] else [])
  | .ind p => [.read s.pc, .read (s.pc + 1), .read (s.pc + 2), .read p, .read (mkWord (hiByte p) (loByte p + 1))]
  | .izx p => [.read s.pc, .read (s.pc + 1), .read (zeroPage p), .read (zeroPage (p + s.regs.x)),
      .read (zeroPage (p + s.regs.x + 1))]
  | .izy p => [.read s.pc, .read (s.pc + 1), .read (zeroPage p), .read (zeroPage (p + 1))] ++
      (if always || o.crosses s then [.read (uncorrected (s.zpWord p) s.regs.y)] else [])
  | .rel _ => [.read s.pc, .read (s.pc + 1)]
  | .pad _ => [.read s.pc, .read (s.pc + 1)]

/-- The byte the bus answers to the operand's read of a read-modify-write (40_sequencer R70, R78 to R93): the answer at
`a` after the lead, whatever stands there. -/
def State.modifyByte (s : State) (o : Operand) (a : Word) : Byte := (s.bus.after 1 (leadAccesses o s true)).answer a

/-- Whether a branch is taken (45_control R149); false of every other instruction. -/
def takenIn (m : Mnemonic) (r : Regs) : Bool :=
  match m with
  | .bpl => !r.n
  | .bmi => r.n
  | .bvc => !r.v
  | .bvs => r.v
  | .bcc => !r.c
  | .bcs => r.c
  | .bne => !r.z
  | .beq => r.z
  | _ => false

/-- The base cycle counts of the read and immediate templates (40_sequencer R105). -/
def readCycles : Mode → Option Nat
  | .imm => some 2
  | .zp => some 3
  | .zpx => some 4
  | .zpy => some 4
  | .abs => some 4
  | .abx => some 4
  | .aby => some 4
  | .izx => some 6
  | .izy => some 5
  | _ => none

/-- The cycle counts of the write templates (40_sequencer R105). -/
def writeCycles : Mode → Option Nat
  | .zp => some 3
  | .zpx => some 4
  | .zpy => some 4
  | .abs => some 4
  | .abx => some 5
  | .aby => some 5
  | .izx => some 6
  | .izy => some 6
  | _ => none

/-- The cycle counts of the read-modify-write templates (40_sequencer R105). -/
def modifyCycles : Mode → Option Nat
  | .zp => some 5
  | .zpx => some 6
  | .abs => some 6
  | .abx => some 7
  | .aby => some 7
  | .izx => some 8
  | .izy => some 8
  | _ => none

/-- The cycle counts of the bespoke sequences (40_sequencer R105). -/
def bespokeCycles (mode : Mode) : Mnemonic → Option Nat
  | .jmp => some (if mode = .ind then 5 else 3)
  | .jsr => some 6
  | .rts => some 6
  | .rti => some 6
  | .brk => some 7
  | .pha => some 3
  | .php => some 3
  | .pla => some 4
  | .plp => some 4
  | _ => none

/-- The base cycle counts of 40_sequencer R105, by access pattern, addressing mode and, for the bespoke sequences,
mnemonic; none for JAM, which never returns to `t = 0`. -/
def documentedCycles (p : Pattern) (mode : Mode) (m : Mnemonic) : Option Nat :=
  match p with
  | .implied => some 2
  | .read => readCycles mode
  | .write => writeCycles mode
  | .rmw => modifyCycles mode
  | .branch => some 2
  | .bespoke => bespokeCycles mode m
  | .halt => none

/-- The extra cycles of an instruction begun in `s` (40_sequencer R105): one for an indexed read that crosses a page; for
a branch one when it is taken and another when it goes to another page. -/
def extraCycles (i : Instr) (s : State) : Nat :=
  match (entryOf i).pattern, i.operand with
  | .read, o => if o.crosses s then 1 else 0
  | .branch, .rel off =>
    if takenIn i.mnemonic s.regs then (if hiByte (s.relTarget off) = hiByte s.pcNext then 1 else 2) else 0
  | _, _ => 0

/-- The documented cycle count of an instruction begun in `s` (40_sequencer R105). -/
def cyclesOf (i : Instr) (s : State) : Option Nat :=
  (documentedCycles (entryOf i).pattern i.operand.mode i.mnemonic).map (· + extraCycles i s)

end Sys2Proof.Machine
end

