-- ==== Sys2Proof/Certificates/Slice0/Obligations.lean ====
section
/-! DEFINITION. The statements for the provers. `exec` runs a whole instruction and `step` a whole sequence (log 1);
`tick` is one cycle. Each docstring says what is stated and which rules of spec/ it formalises. -/

open Sys2Proof Sys2Proof.Machine

/-- Every ADC opcode is in its documented mode. Between instructions, with the instruction at PC and plain memory at
its bytes, pointer and operand, ADC completes: A is the low byte of A + m + C, C is set iff the sum exceeds 255, V
iff both operands share a sign and the result's differs, N and Z from the result; D is not read and no other
register, flag or byte of memory changes. (R109) -/
def Obligations.AdcAddsWithCarryInBinary : Prop :=
  Encoded .adc [(0x69, .imm), (0x65, .zp), (0x75, .zpx), (0x6D, .abs), (0x7D, .abx), (0x79, .aby), (0x61, .izx),
    (0x71, .izy)] ∧
  ∀ i s, Ready i s → DataPlain i.operand s →
    let m := i.operand.value s
    let sum := s.regs.a.toNat + m.toNat + s.regs.c.toNat
    let res := BitVec.ofNat 8 sum
    i.mnemonic = .adc →
      Completes i s
        { s.regs with
          a := res, n := res.msb, z := res == 0, c := decide (255 < sum),
          v := (s.regs.a.msb == m.msb) && (res.msb != s.regs.a.msb) }
        (s.pcAfter i) s.peek

/-- SBC in each of its modes and USBC complete with A - m - (1 - C), C set iff A >= m + (1 - C), V by ADC's overflow
rule on A and the complement of m, N and Z from the result, and nothing else changes. For all A and B, SBC(ADC(A, B,
carry 0), B, carry 1) gives A back. (R110, R182) -/
def Obligations.SbcSubtractsWithInvertedBorrow : Prop :=
  Encoded .sbc [(0xE9, .imm), (0xE5, .zp), (0xF5, .zpx), (0xED, .abs), (0xFD, .abx), (0xF9, .aby), (0xE1, .izx),
    (0xF1, .izy)] ∧
  Encoded .usbc [(0xEB, .imm)] ∧
  (∀ i s, Ready i s → DataPlain i.operand s →
    let m := i.operand.value s
    let borrow : Byte := if s.regs.c then 0 else 1
    let res := s.regs.a - m - borrow
    i.mnemonic = .sbc ∨ i.mnemonic = .usbc →
      Completes i s
        { s.regs with
          a := res, n := res.msb, z := res == 0, c := decide (m.toNat + borrow.toNat ≤ s.regs.a.toNat),
          v := (s.regs.a.msb != m.msb) && (res.msb != s.regs.a.msb) }
        (s.pcAfter i) s.peek) ∧
  ∀ (r : Regs) (b : Byte), (opSbc { opAdc { r with c := false } b with c := true } b).a = r.a

/-- AND, ORA and EOR complete with the bitwise and, or, exclusive or of A and the operand in A, N and Z from that
result, and no other register, flag or byte of memory changed. (R111, R112, R113) -/
def Obligations.LogicOpsWriteAAndNZ : Prop :=
  Encoded .and [(0x29, .imm), (0x25, .zp), (0x35, .zpx), (0x2D, .abs), (0x3D, .abx), (0x39, .aby), (0x21, .izx),
    (0x31, .izy)] ∧
  Encoded .ora [(0x09, .imm), (0x05, .zp), (0x15, .zpx), (0x0D, .abs), (0x1D, .abx), (0x19, .aby), (0x01, .izx),
    (0x11, .izy)] ∧
  Encoded .eor [(0x49, .imm), (0x45, .zp), (0x55, .zpx), (0x4D, .abs), (0x5D, .abx), (0x59, .aby), (0x41, .izx),
    (0x51, .izy)] ∧
  ∀ i s, Ready i s → DataPlain i.operand s →
    let m := i.operand.value s
    (i.mnemonic = .and → Completes i s
      { s.regs with a := s.regs.a &&& m, n := (s.regs.a &&& m).msb, z := s.regs.a &&& m == 0 } (s.pcAfter i) s.peek) ∧
    (i.mnemonic = .ora → Completes i s
      { s.regs with a := s.regs.a ||| m, n := (s.regs.a ||| m).msb, z := s.regs.a ||| m == 0 } (s.pcAfter i) s.peek) ∧
    (i.mnemonic = .eor → Completes i s
      { s.regs with a := s.regs.a ^^^ m, n := (s.regs.a ^^^ m).msb, z := s.regs.a ^^^ m == 0 } (s.pcAfter i) s.peek)

/-- CMP, CPX and CPY complete with C set iff the register is at least the operand (unsigned), Z iff they are equal,
N bit 7 of the difference; BIT with Z from A AND m and N, V from bits 7 and 6 of m. No register, other flag or byte
of memory changes. (R114, R115, R116, R117) -/
def Obligations.ComparesAndBitOnlyWriteFlags : Prop :=
  Encoded .cmp [(0xC9, .imm), (0xC5, .zp), (0xD5, .zpx), (0xCD, .abs), (0xDD, .abx), (0xD9, .aby), (0xC1, .izx),
    (0xD1, .izy)] ∧
  Encoded .cpx [(0xE0, .imm), (0xE4, .zp), (0xEC, .abs)] ∧
  Encoded .cpy [(0xC0, .imm), (0xC4, .zp), (0xCC, .abs)] ∧
  Encoded .bit [(0x24, .zp), (0x2C, .abs)] ∧
  ∀ i s, Ready i s → DataPlain i.operand s →
    let m := i.operand.value s
    let flags := fun r : Byte => { s.regs with c := decide (m.toNat ≤ r.toNat), z := r == m, n := (r - m).msb }
    (i.mnemonic = .cmp → Completes i s (flags s.regs.a) (s.pcAfter i) s.peek) ∧
    (i.mnemonic = .cpx → Completes i s (flags s.regs.x) (s.pcAfter i) s.peek) ∧
    (i.mnemonic = .cpy → Completes i s (flags s.regs.y) (s.pcAfter i) s.peek) ∧
    (i.mnemonic = .bit → Completes i s
      { s.regs with z := s.regs.a &&& m == 0, n := m.getLsbD 7, v := m.getLsbD 6 } (s.pcAfter i) s.peek)

/-- LDA, LDX and LDY, in every mode, complete with the operand byte in A, X, Y, N and Z from that byte, and no other
register, flag or byte of memory changed. (R119, R120, R121) -/
def Obligations.LoadsWriteRegisterAndNZ : Prop :=
  Encoded .lda [(0xA9, .imm), (0xA5, .zp), (0xB5, .zpx), (0xAD, .abs), (0xBD, .abx), (0xB9, .aby), (0xA1, .izx),
    (0xB1, .izy)] ∧
  Encoded .ldx [(0xA2, .imm), (0xA6, .zp), (0xB6, .zpy), (0xAE, .abs), (0xBE, .aby)] ∧
  Encoded .ldy [(0xA0, .imm), (0xA4, .zp), (0xB4, .zpx), (0xAC, .abs), (0xBC, .abx)] ∧
  ∀ i s, Ready i s → DataPlain i.operand s →
    let m := i.operand.value s
    (i.mnemonic = .lda → Completes i s { s.regs with a := m, n := m.msb, z := m == 0 } (s.pcAfter i) s.peek) ∧
    (i.mnemonic = .ldx → Completes i s { s.regs with x := m, n := m.msb, z := m == 0 } (s.pcAfter i) s.peek) ∧
    (i.mnemonic = .ldy → Completes i s { s.regs with y := m, n := m.msb, z := m == 0 } (s.pcAfter i) s.peek)

/-- LAX completes with the operand in A and X, LAS with m AND S in A, X and S; N and Z come from that value and
nothing else changes. (R173, R187) -/
def Obligations.LaxAndLasLoadSeveralRegisters : Prop :=
  Encoded .lax [(0xA7, .zp), (0xB7, .zpy), (0xAF, .abs), (0xBF, .aby), (0xA3, .izx), (0xB3, .izy)] ∧
  Encoded .las [(0xBB, .aby)] ∧
  ∀ i s, Ready i s → DataPlain i.operand s →
    let m := i.operand.value s
    (i.mnemonic = .lax → Completes i s { s.regs with a := m, x := m, n := m.msb, z := m == 0 } (s.pcAfter i) s.peek) ∧
    (i.mnemonic = .las → Completes i s
      { s.regs with
        a := m &&& s.regs.s, x := m &&& s.regs.s, s := m &&& s.regs.s, n := (m &&& s.regs.s).msb,
        z := m &&& s.regs.s == 0 }
      (s.pcAfter i) s.peek)

/-- For the address the operand's formula gives, STA, STX, STY and SAX complete with A, X, Y, A AND X stored there
(where RAM stands), every other byte, every register and every flag as before. That a write to ROM or to a device
leaves every plain byte as it was is the model's choice (log 3, DESIGN CHOICE), not a rule of the spec. (R122, R123,
R124, R172) -/
def Obligations.StoresWriteOnlyTheirByte : Prop :=
  Encoded .sta [(0x85, .zp), (0x95, .zpx), (0x8D, .abs), (0x9D, .abx), (0x99, .aby), (0x81, .izx), (0x91, .izy)] ∧
  Encoded .stx [(0x86, .zp), (0x96, .zpy), (0x8E, .abs)] ∧
  Encoded .sty [(0x84, .zp), (0x94, .zpx), (0x8C, .abs)] ∧
  Encoded .sax [(0x87, .zp), (0x97, .zpy), (0x8F, .abs), (0x83, .izx)] ∧
  ∀ i s a, Ready i s → i.operand.effAddr s = some a →
    (i.mnemonic = .sta → Completes i s s.regs (s.pcAfter i) (stored s s.peek a s.regs.a)) ∧
    (i.mnemonic = .stx → Completes i s s.regs (s.pcAfter i) (stored s s.peek a s.regs.x)) ∧
    (i.mnemonic = .sty → Completes i s s.regs (s.pcAfter i) (stored s s.peek a s.regs.y)) ∧
    (i.mnemonic = .sax → Completes i s s.regs (s.pcAfter i) (stored s s.peek a (s.regs.a &&& s.regs.x)))

/-- Between instructions each transfer completes with the destination register holding the source, N and Z from it
(TXS writes no flag), PC one further, and every other register, flag and byte of memory as before. (R125, R126,
R127, R128, R129, R130) -/
def Obligations.TransfersCopyRegisters : Prop :=
  Encoded .tax [(0xAA, .imp)] ∧
  Encoded .tay [(0xA8, .imp)] ∧
  Encoded .txa [(0x8A, .imp)] ∧
  Encoded .tya [(0x98, .imp)] ∧
  Encoded .tsx [(0xBA, .imp)] ∧
  Encoded .txs [(0x9A, .imp)] ∧
  ∀ s : State, s.t = 0 →
    Completes .tax s { s.regs with x := s.regs.a, n := s.regs.a.msb, z := s.regs.a == 0 } (s.pc + 1) s.peek ∧
    Completes .tay s { s.regs with y := s.regs.a, n := s.regs.a.msb, z := s.regs.a == 0 } (s.pc + 1) s.peek ∧
    Completes .txa s { s.regs with a := s.regs.x, n := s.regs.x.msb, z := s.regs.x == 0 } (s.pc + 1) s.peek ∧
    Completes .tya s { s.regs with a := s.regs.y, n := s.regs.y.msb, z := s.regs.y == 0 } (s.pc + 1) s.peek ∧
    Completes .tsx s { s.regs with x := s.regs.s, n := s.regs.s.msb, z := s.regs.s == 0 } (s.pc + 1) s.peek ∧
    Completes .txs s { s.regs with s := s.regs.x } (s.pc + 1) s.peek

/-- On A or on the byte at the effective address, each shift or rotate completes with the shifted byte (ROL and ROR
insert the old carry), C the bit shifted out, N and Z from the result; the memory forms leave every other byte and A
unchanged. The byte at the effective address is the one the bus answers there after the lead accesses, a device's
answer included; only RAM is changed by the store. That a write to ROM or to a device leaves every plain byte as it
was is the model's choice (log 3, DESIGN CHOICE), not a rule of the spec. (R131, R132, R133, R134) -/
def Obligations.ShiftsAndRotatesOnAAndMemory : Prop :=
  Encoded .asl [(0x0A, .acc), (0x06, .zp), (0x16, .zpx), (0x0E, .abs), (0x1E, .abx)] ∧
  Encoded .lsr [(0x4A, .acc), (0x46, .zp), (0x56, .zpx), (0x4E, .abs), (0x5E, .abx)] ∧
  Encoded .rol [(0x2A, .acc), (0x26, .zp), (0x36, .zpx), (0x2E, .abs), (0x3E, .abx)] ∧
  Encoded .ror [(0x6A, .acc), (0x66, .zp), (0x76, .zpx), (0x6E, .abs), (0x7E, .abx)] ∧
  (∀ s : State, s.t = 0 →
    let v := s.regs.a
    let asl := v <<< 1
    let lsr := v >>> 1
    let rol := v <<< 1 ||| (if s.regs.c then 1 else 0)
    let ror := v >>> 1 ||| (if s.regs.c then 0x80 else 0)
    Completes .aslAcc s { s.regs with a := asl, c := v.getLsbD 7, n := asl.msb, z := asl == 0 } (s.pc + 1) s.peek ∧
    Completes .lsrAcc s { s.regs with a := lsr, c := v.getLsbD 0, n := false, z := lsr == 0 } (s.pc + 1) s.peek ∧
    Completes .rolAcc s { s.regs with a := rol, c := v.getLsbD 7, n := rol.msb, z := rol == 0 } (s.pc + 1) s.peek ∧
    Completes .rorAcc s { s.regs with a := ror, c := v.getLsbD 0, n := s.regs.c, z := ror == 0 } (s.pc + 1) s.peek) ∧
  ∀ i s a, Ready i s → i.operand.effAddr s = some a →
    let v := s.modifyByte i.operand a
    let asl := v <<< 1
    let lsr := v >>> 1
    let rol := v <<< 1 ||| (if s.regs.c then 1 else 0)
    let ror := v >>> 1 ||| (if s.regs.c then 0x80 else 0)
    (i.mnemonic = .asl → Completes i s
      { s.regs with c := v.getLsbD 7, n := asl.msb, z := asl == 0 } (s.pcAfter i) (stored s s.peek a asl)) ∧
    (i.mnemonic = .lsr → Completes i s
      { s.regs with c := v.getLsbD 0, n := false, z := lsr == 0 } (s.pcAfter i) (stored s s.peek a lsr)) ∧
    (i.mnemonic = .rol → Completes i s
      { s.regs with c := v.getLsbD 7, n := rol.msb, z := rol == 0 } (s.pcAfter i) (stored s s.peek a rol)) ∧
    (i.mnemonic = .ror → Completes i s
      { s.regs with c := v.getLsbD 0, n := s.regs.c, z := ror == 0 } (s.pcAfter i) (stored s s.peek a ror))

/-- INC and DEC complete with the byte at the effective address incremented or decremented mod 256, N and Z from the
new byte, and every register, other flag and other byte of memory as before. The byte at the effective address is
the one the bus answers there after the lead accesses, a device's answer included; only RAM is changed by the store.
That a write to ROM or to a device leaves every plain byte as it was is the model's choice (log 3, DESIGN CHOICE),
not a rule of the spec. (R135, R136) -/
def Obligations.IncDecModifyOneByte : Prop :=
  Encoded .inc [(0xE6, .zp), (0xF6, .zpx), (0xEE, .abs), (0xFE, .abx)] ∧
  Encoded .dec [(0xC6, .zp), (0xD6, .zpx), (0xCE, .abs), (0xDE, .abx)] ∧
  ∀ i s a, Ready i s → i.operand.effAddr s = some a →
    let v := s.modifyByte i.operand a
    let up := v + 1
    let down := v - 1
    (i.mnemonic = .inc → Completes i s
      { s.regs with n := up.msb, z := up == 0 } (s.pcAfter i) (stored s s.peek a up)) ∧
    (i.mnemonic = .dec → Completes i s
      { s.regs with n := down.msb, z := down == 0 } (s.pcAfter i) (stored s s.peek a down))

/-- Between instructions INX, INY, DEX and DEY complete with the register incremented or decremented mod 256, N and
Z from it, PC one further, and nothing else changed. (R137, R138, R139, R140) -/
def Obligations.RegisterIncrementsAndDecrements : Prop :=
  Encoded .inx [(0xE8, .imp)] ∧
  Encoded .iny [(0xC8, .imp)] ∧
  Encoded .dex [(0xCA, .imp)] ∧
  Encoded .dey [(0x88, .imp)] ∧
  ∀ s : State, s.t = 0 →
    Completes .inx s
      { s.regs with x := s.regs.x + 1, n := (s.regs.x + 1).msb, z := s.regs.x + 1 == 0 } (s.pc + 1) s.peek ∧
    Completes .iny s
      { s.regs with y := s.regs.y + 1, n := (s.regs.y + 1).msb, z := s.regs.y + 1 == 0 } (s.pc + 1) s.peek ∧
    Completes .dex s
      { s.regs with x := s.regs.x - 1, n := (s.regs.x - 1).msb, z := s.regs.x - 1 == 0 } (s.pc + 1) s.peek ∧
    Completes .dey s
      { s.regs with y := s.regs.y - 1, n := (s.regs.y - 1).msb, z := s.regs.y - 1 == 0 } (s.pc + 1) s.peek

/-- Between instructions each flag instruction completes with its one flag written, PC one further, nothing else
changed, and the service latch holding the answer of a poll made with the I flag before it. (R141, R142, R143, R144,
R145, R146, R147) -/
def Obligations.FlagInstructionsWriteOneFlag : Prop :=
  Encoded .clc [(0x18, .imp)] ∧
  Encoded .sec [(0x38, .imp)] ∧
  Encoded .cli [(0x58, .imp)] ∧
  Encoded .sei [(0x78, .imp)] ∧
  Encoded .clv [(0xB8, .imp)] ∧
  Encoded .cld [(0xD8, .imp)] ∧
  Encoded .sed [(0xF8, .imp)] ∧
  ∀ s : State, s.t = 0 →
    Completes .clc s { s.regs with c := false } (s.pc + 1) s.peek ∧
    Completes .sec s { s.regs with c := true } (s.pc + 1) s.peek ∧
    Completes .cli s { s.regs with i := false } (s.pc + 1) s.peek ∧
    Completes .sei s { s.regs with i := true } (s.pc + 1) s.peek ∧
    Completes .clv s { s.regs with v := false } (s.pc + 1) s.peek ∧
    Completes .cld s { s.regs with d := false } (s.pc + 1) s.peek ∧
    Completes .sed s { s.regs with d := true } (s.pc + 1) s.peek

/-- Every instruction of mnemonic NOP, between instructions and whatever stands in memory, completes with PC past
its bytes and every register, flag and plain byte of memory as before. (R148, R188, R189) -/
def Obligations.NopsChangeOnlyPc : Prop :=
  Encoded .nop [(0xEA, .imp), (0x1A, .imp), (0x3A, .imp), (0x5A, .imp), (0x7A, .imp), (0xDA, .imp), (0xFA, .imp),
    (0x80, .imm), (0x82, .imm), (0x89, .imm), (0xC2, .imm), (0xE2, .imm), (0x04, .zp), (0x44, .zp), (0x64, .zp),
    (0x14, .zpx), (0x34, .zpx), (0x54, .zpx), (0x74, .zpx), (0xD4, .zpx), (0xF4, .zpx), (0x0C, .abs), (0x1C, .abx),
    (0x3C, .abx), (0x5C, .abx), (0x7C, .abx), (0xDC, .abx), (0xFC, .abx)] ∧
  ∀ i s, i.mnemonic = .nop → s.t = 0 → Completes i s s.regs (s.pcAfter i) s.peek

/-- A branch at PC completes with PC at the next instruction when its condition fails, else at the next instruction
plus the sign-extended offset; it makes 2 accesses, a third (at the next instruction) when taken, a fourth (old
page, new low byte) when the target is on another page than the next instruction; no register, flag or byte of
memory changes. (R150, R151, R152, R153, R154, R155, R156, R157) -/
def Obligations.BranchesTakeTheirConditionAndTarget : Prop :=
  Encoded .bpl [(0x10, .rel)] ∧
  Encoded .bmi [(0x30, .rel)] ∧
  Encoded .bvc [(0x50, .rel)] ∧
  Encoded .bvs [(0x70, .rel)] ∧
  Encoded .bcc [(0x90, .rel)] ∧
  Encoded .bcs [(0xB0, .rel)] ∧
  Encoded .bne [(0xD0, .rel)] ∧
  Encoded .beq [(0xF0, .rel)] ∧
  ∀ i s off, Ready i s → i.operand = .rel off →
    ∀ row ∈ [(Mnemonic.bpl, !s.regs.n), (.bmi, s.regs.n), (.bvc, !s.regs.v), (.bvs, s.regs.v), (.bcc, !s.regs.c),
      (.bcs, s.regs.c), (.bne, !s.regs.z), (.beq, s.regs.z)],
      i.mnemonic = row.1 →
        let next := s.pc + 2
        let target := next + off.signExtend 16
        ∃ t, exec i s = .next t ∧ Settled s t s.regs (if row.2 then target else next) s.pollAnswer ∧
          t.nmiPending = s.nmiPending ∧ MemIs s t s.peek ∧
          t.bus = s.bus.after 1
            ([.read s.pc, .read (s.pc + 1)] ++
              (if row.2 then
                [.read next] ++
                  (if hiByte target = hiByte next then [] else [.read (mkWord (hiByte next) (loByte target))])
              else []))

/-- JMP abs completes with PC at its operand. JMP ind completes with the low byte of PC read at the pointer and the
high byte at the next address in the pointer's own page (0xFF wraps to 0x00). No register, flag or byte of memory
changes; the bus accesses are exactly three, or five. (R158, R159) -/
def Obligations.JumpsLoadPc : Prop :=
  Encoded .jmp [(0x4C, .abs), (0x6C, .ind)] ∧
  (∀ w s, Ready (.jmpAbs w) s →
    ∃ t, exec (.jmpAbs w) s = .next t ∧ Settled s t s.regs w s.pollAnswer ∧ t.nmiPending = s.nmiPending ∧
      MemIs s t s.peek ∧ t.bus = s.bus.after 1 [.read s.pc, .read (s.pc + 1), .read (s.pc + 2)]) ∧
  ∀ p s, Ready (.jmpInd p) s →
    let second := mkWord (hiByte p) (loByte p + 1)
    ∃ t, exec (.jmpInd p) s = .next t ∧
      Settled s t s.regs (mkWord (s.peek second) (s.peek p)) s.pollAnswer ∧ t.nmiPending = s.nmiPending ∧
      MemIs s t s.peek ∧
      t.bus = s.bus.after 1 [.read s.pc, .read (s.pc + 1), .read (s.pc + 2), .read p, .read second]

/-- JSR with its operand bytes in plain memory completes with PC's high byte and low byte of its own address + 2
stored at the old top of the stack and the next byte down (wrapping in page 1), S two lower, and PC at the target,
whose high byte is read after the pushes; where the stack does not overlap that byte, PC is the operand. Nothing
else changes, and the six bus accesses are these. That a write to ROM or to a device leaves every plain byte as it
was is the model's choice (log 3, DESIGN CHOICE), not a rule of the spec. (R160) -/
def Obligations.JsrPushesReturnAddress : Prop :=
  Encoded .jsr [(0x20, .abs)] ∧
  ∀ w s, s.t = 0 → s.bus.mem.wf = true → s.PlainAt (s.pc + 1) → s.peek (s.pc + 1) = loByte w → s.PlainAt (s.pc + 2) →
    s.peek (s.pc + 2) = hiByte w →
    let top := stackAddr s.regs.s
    let below := stackAddr (s.regs.s - 1)
    let mem := stored s (stored s s.peek top (hiByte (s.pc + 2))) below (loByte (s.pc + 2))
    (s.pc + 2 ≠ top → s.pc + 2 ≠ below → mkWord (mem (s.pc + 2)) (loByte w) = w) ∧
    ∃ t, exec (.jsr w) s = .next t ∧
      Settled s t { s.regs with s := s.regs.s - 2 } (mkWord (mem (s.pc + 2)) (loByte w)) s.pollAnswer ∧
      t.nmiPending = s.nmiPending ∧ MemIs s t mem ∧
      t.bus = s.bus.after 1
        [.read s.pc, .read (s.pc + 1), .read top, .write top (hiByte (s.pc + 2)), .write below (loByte (s.pc + 2)),
          .read (s.pc + 2)]

/-- RTS with plain memory at the two pulled bytes completes with PC one past the pulled word, S two higher, every
other register, flag and byte as before; its six bus accesses are these. (R161) -/
def Obligations.RtsReturnsPastThePushedAddress : Prop :=
  Encoded .rts [(0x60, .imp)] ∧
  ∀ s : State, s.t = 0 →
    let first := stackAddr (s.regs.s + 1)
    let second := stackAddr (s.regs.s + 2)
    s.PlainAt first → s.PlainAt second →
    let back := mkWord (s.peek second) (s.peek first)
    ∃ t, exec .rts s = .next t ∧ Settled s t { s.regs with s := s.regs.s + 2 } (back + 1) s.pollAnswer ∧
      t.nmiPending = s.nmiPending ∧ MemIs s t s.peek ∧
      t.bus = s.bus.after 1
        [.read s.pc, .read (s.pc + 1), .read (stackAddr s.regs.s), .read first, .read second, .read back]

/-- RTI with plain memory at the three pulled bytes completes with N, V, D, I, Z and C from the pulled status, PC
the pulled word with no increment, S three higher, every other register and byte as before, and the service latch
holding a poll made with the restored I. (R162) -/
def Obligations.RtiRestoresStatusThenPc : Prop :=
  Encoded .rti [(0x40, .imp)] ∧
  ∀ s : State, s.t = 0 →
    let first := stackAddr (s.regs.s + 1)
    let second := stackAddr (s.regs.s + 2)
    let third := stackAddr (s.regs.s + 3)
    s.PlainAt first → s.PlainAt second → s.PlainAt third →
    let p := s.peek first
    ∃ t, exec .rti s = .next t ∧
      Settled s t
        { s.regs with
          s := s.regs.s + 3, n := p.getLsbD 7, v := p.getLsbD 6, d := p.getLsbD 3, i := p.getLsbD 2,
          z := p.getLsbD 1, c := p.getLsbD 0 }
        (mkWord (s.peek third) (s.peek second))
        (s.nmiPending || (decide (0 < s.irqAsserted.length) && !p.getLsbD 2)) ∧
      t.nmiPending = s.nmiPending ∧ MemIs s t s.peek ∧
      t.bus = s.bus.after 1
        [.read s.pc, .read (s.pc + 1), .read (stackAddr s.regs.s), .read first, .read second, .read third]

/-- BRK, whatever I is and whatever its padding byte, completes with PC + 2 (high byte first) and the status with B
= 1 pushed, S three lower, I set, D and every other flag and register as before, and PC the word at 0xFFFE, or at
0xFFFA when an NMI is pending, which is then consumed. It never leaves an IRQ to be served: with P_BRK_POLLS its own
poll finds nothing, without it there is no poll. Its seven bus accesses are these. That a write to ROM or to a
device leaves every plain byte as it was is the model's choice (log 3, DESIGN CHOICE), not a rule of the spec.
(R163) -/
def Obligations.BrkEntersThroughTheVector : Prop :=
  Encoded .brk [(0x00, .imp)] ∧
  ∀ pad s, s.t = 0 → s.bus.mem.wf = true →
    let vec : Word := if s.nmiPending then 0xFFFA else 0xFFFE
    let top := stackAddr s.regs.s
    let below := stackAddr (s.regs.s - 1)
    let third := stackAddr (s.regs.s - 2)
    let status := pack s.regs true
    let mem := stored s (stored s (stored s s.peek top (hiByte (s.pc + 2))) below (loByte (s.pc + 2))) third status
    s.PlainAt vec → s.PlainAt (vec + 1) →
    ∃ t, exec (.brk pad) s = .next t ∧
      Settled s t { s.regs with s := s.regs.s - 3, i := true } (mkWord (s.peek (vec + 1)) (s.peek vec))
        (if s.params.brkPolls then false else s.intRequested) ∧
      t.nmiPending = false ∧ MemIs s t mem ∧
      t.bus = s.bus.after 1
        [.read s.pc, .read (s.pc + 1), .write top (hiByte (s.pc + 2)), .write below (loByte (s.pc + 2)),
          .write third status, .read vec, .read (vec + 1)]

/-- PHA and PHP complete with A, or the packed status with bits 5 and 4 set, stored at 0x0100 | S, S one lower
(wrapping in page 1), no flag written, and every other register and byte as before. That a write to ROM or to a
device leaves every plain byte as it was is the model's choice (log 3, DESIGN CHOICE), not a rule of the spec.
(R164, R165) -/
def Obligations.PushesStoreAtTheTop : Prop :=
  Encoded .pha [(0x48, .imp)] ∧
  Encoded .php [(0x08, .imp)] ∧
  ∀ s : State, s.t = 0 → s.bus.mem.wf = true →
    Completes .pha s { s.regs with s := s.regs.s - 1 } (s.pc + 1) (stored s s.peek (stackAddr s.regs.s) s.regs.a) ∧
    Completes .php s { s.regs with s := s.regs.s - 1 } (s.pc + 1)
      (stored s s.peek (stackAddr s.regs.s) (pack s.regs true)) ∧
    stackAddr s.regs.s = BitVec.ofNat 16 (256 + s.regs.s.toNat) ∧ (pack s.regs true).toNat / 16 % 4 = 3

/-- With plain memory at 0x0100 | (S + 1), PLA completes with that byte in A and N, Z from it, PLP with the six
flags from it (bits 5 and 4 discarded); S is one higher, every other register and byte as before, and the service
latch holds a poll made with the I flag before the pull. (R166, R167) -/
def Obligations.PullsLoadFromAboveTheTop : Prop :=
  Encoded .pla [(0x68, .imp)] ∧
  Encoded .plp [(0x28, .imp)] ∧
  ∀ s : State, s.t = 0 → s.PlainAt (stackAddr (s.regs.s + 1)) →
    let p := s.peek (stackAddr (s.regs.s + 1))
    Completes .pla s { s.regs with s := s.regs.s + 1, a := p, n := p.msb, z := p == 0 } (s.pc + 1) s.peek ∧
    Completes .plp s
      { s.regs with
        s := s.regs.s + 1, n := p.getLsbD 7, v := p.getLsbD 6, d := p.getLsbD 3, i := p.getLsbD 2, z := p.getLsbD 1,
        c := p.getLsbD 0 }
      (s.pc + 1) s.peek

/-- SLO, RLA and SRE complete with the shifted or rotated byte stored at the effective address, C the bit shifted
out, A combined with the new byte by or, and, exclusive or, N and Z from the final A, and nothing else changed. The
byte at the effective address is the one the bus answers there after the lead accesses, a device's answer included;
only RAM is changed by the store. That a write to ROM or to a device leaves every plain byte as it was is the
model's choice (log 3, DESIGN CHOICE), not a rule of the spec. (R168, R169, R170) -/
def Obligations.ShiftThenLogicOpcodes : Prop :=
  Encoded .slo [(0x07, .zp), (0x17, .zpx), (0x0F, .abs), (0x1F, .abx), (0x1B, .aby), (0x03, .izx), (0x13, .izy)] ∧
  Encoded .rla [(0x27, .zp), (0x37, .zpx), (0x2F, .abs), (0x3F, .abx), (0x3B, .aby), (0x23, .izx), (0x33, .izy)] ∧
  Encoded .sre [(0x47, .zp), (0x57, .zpx), (0x4F, .abs), (0x5F, .abx), (0x5B, .aby), (0x43, .izx), (0x53, .izy)] ∧
  ∀ i s a, Ready i s → i.operand.effAddr s = some a →
    let v := s.modifyByte i.operand a
    let asl := v <<< 1
    let rol := v <<< 1 ||| (if s.regs.c then 1 else 0)
    let lsr := v >>> 1
    (i.mnemonic = .slo → Completes i s
      { s.regs with a := s.regs.a ||| asl, c := v.getLsbD 7, n := (s.regs.a ||| asl).msb, z := s.regs.a ||| asl == 0 }
      (s.pcAfter i) (stored s s.peek a asl)) ∧
    (i.mnemonic = .rla → Completes i s
      { s.regs with a := s.regs.a &&& rol, c := v.getLsbD 7, n := (s.regs.a &&& rol).msb, z := s.regs.a &&& rol == 0 }
      (s.pcAfter i) (stored s s.peek a rol)) ∧
    (i.mnemonic = .sre → Completes i s
      { s.regs with a := s.regs.a ^^^ lsr, c := v.getLsbD 0, n := (s.regs.a ^^^ lsr).msb, z := s.regs.a ^^^ lsr == 0 }
      (s.pcAfter i) (stored s s.peek a lsr))

/-- RRA stores the rotated byte and adds it to A with the carry just shifted out; ISC stores the incremented byte
and subtracts it with borrow; DCP stores the decremented byte and compares A with it. The flags are those of the
addition, the subtraction, the comparison, and nothing else changes. The byte at the effective address is the one
the bus answers there after the lead accesses, a device's answer included; only RAM is changed by the store. That a
write to ROM or to a device leaves every plain byte as it was is the model's choice (log 3, DESIGN CHOICE), not a
rule of the spec. (R171, R174, R175) -/
def Obligations.ModifyThenArithmeticOpcodes : Prop :=
  Encoded .rra [(0x67, .zp), (0x77, .zpx), (0x6F, .abs), (0x7F, .abx), (0x7B, .aby), (0x63, .izx), (0x73, .izy)] ∧
  Encoded .dcp [(0xC7, .zp), (0xD7, .zpx), (0xCF, .abs), (0xDF, .abx), (0xDB, .aby), (0xC3, .izx), (0xD3, .izy)] ∧
  Encoded .isc [(0xE7, .zp), (0xF7, .zpx), (0xEF, .abs), (0xFF, .abx), (0xFB, .aby), (0xE3, .izx), (0xF3, .izy)] ∧
  ∀ i s a, Ready i s → i.operand.effAddr s = some a →
    let v := s.modifyByte i.operand a
    let ror := v >>> 1 ||| (if s.regs.c then 0x80 else 0)
    let sum := s.regs.a.toNat + ror.toNat + (v.getLsbD 0).toNat
    let added := BitVec.ofNat 8 sum
    let up := v + 1
    let borrow : Byte := if s.regs.c then 0 else 1
    let left := s.regs.a - up - borrow
    let down := v - 1
    (i.mnemonic = .rra →
      Completes i s
        { s.regs with
          a := added, n := added.msb, z := added == 0, c := decide (255 < sum),
          v := (s.regs.a.msb == ror.msb) && (added.msb != s.regs.a.msb) }
        (s.pcAfter i) (stored s s.peek a ror)) ∧
    (i.mnemonic = .isc →
      Completes i s
        { s.regs with
          a := left, n := left.msb, z := left == 0, c := decide (up.toNat + borrow.toNat ≤ s.regs.a.toNat),
          v := (s.regs.a.msb != up.msb) && (left.msb != s.regs.a.msb) }
        (s.pcAfter i) (stored s s.peek a up)) ∧
    (i.mnemonic = .dcp →
      Completes i s
        { s.regs with c := decide (down.toNat ≤ s.regs.a.toNat), z := s.regs.a == down, n := (s.regs.a - down).msb }
        (s.pcAfter i) (stored s s.peek a down))

/-- ANC, ALR, ARR and SBX with plain memory at their immediate complete with the results and flags of their rules
(ANC's C copies N; ALR's N is 0; ARR's C is bit 6 and V bit 6 xor bit 5 of the result, D ignored; SBX compares A AND
X with the immediate and writes X), and nothing else changed. (R176, R177, R178, R181) -/
def Obligations.ImmediateCombinedOpcodes : Prop :=
  Encoded .anc [(0x0B, .imm), (0x2B, .imm)] ∧
  Encoded .alr [(0x4B, .imm)] ∧
  Encoded .arr [(0x6B, .imm)] ∧
  Encoded .sbx [(0xCB, .imm)] ∧
  ∀ i s, Ready i s → DataPlain i.operand s →
    let m := i.operand.value s
    let both := s.regs.a &&& m
    let half := both >>> 1
    let arr := both >>> 1 ||| (if s.regs.c then 0x80 else 0)
    let axs := s.regs.a &&& s.regs.x
    (i.mnemonic = .anc → Completes i s
      { s.regs with a := both, n := both.msb, z := both == 0, c := both.msb } (s.pcAfter i) s.peek) ∧
    (i.mnemonic = .alr → Completes i s
      { s.regs with a := half, n := false, z := half == 0, c := both.getLsbD 0 } (s.pcAfter i) s.peek) ∧
    (i.mnemonic = .arr → Completes i s
      { s.regs with a := arr, n := arr.msb, z := arr == 0, c := arr.getLsbD 6, v := arr.getLsbD 6 ^^ arr.getLsbD 5 }
      (s.pcAfter i) s.peek) ∧
    (i.mnemonic = .sbx → Completes i s
      { s.regs with x := axs - m, n := (axs - m).msb, z := axs - m == 0, c := decide (m.toNat ≤ axs.toNat) }
      (s.pcAfter i) s.peek)

/-- For every value of the parameter P_MAGIC, ANE completes with (A | P_MAGIC) & X & m in A and LXA with (A |
P_MAGIC) & m in A and X, N and Z from it, and nothing else changed. (R179, R180) -/
def Obligations.MagicConstantOpcodes : Prop :=
  Encoded .ane [(0x8B, .imm)] ∧
  Encoded .lxa [(0xAB, .imm)] ∧
  ∀ i s, Ready i s → DataPlain i.operand s →
    let m := i.operand.value s
    let ane := (s.regs.a ||| s.params.magic) &&& s.regs.x &&& m
    let lxa := (s.regs.a ||| s.params.magic) &&& m
    (i.mnemonic = .ane → Completes i s { s.regs with a := ane, n := ane.msb, z := ane == 0 } (s.pcAfter i) s.peek) ∧
    (i.mnemonic = .lxa → Completes i s
      { s.regs with a := lxa, x := lxa, n := lxa.msb, z := lxa == 0 } (s.pcAfter i) s.peek)

/-- With H the high byte of the base address, SHA, SHX, SHY and TAS complete with v = r AND (H + 1) stored at the
indexed address, or, when the index addition crosses a page, at the address of high byte v and the indexed low byte;
r is A AND X, X, Y, A AND X; TAS also writes A AND X to S; no flag and no other register or byte changes. The bus
accesses are the mode's, then the write. That a write to ROM or to a device leaves every plain byte as it was is the
model's choice (log 3, DESIGN CHOICE), not a rule of the spec. (R183, R184, R185, R186) -/
def Obligations.UnstableStoresCombineTheHighByte : Prop :=
  Encoded .sha [(0x9F, .aby), (0x93, .izy)] ∧
  Encoded .shx [(0x9E, .aby)] ∧
  Encoded .shy [(0x9C, .abx)] ∧
  Encoded .tas [(0x9B, .aby)] ∧
  ∀ i s (base : Word) (ix : Byte), Ready i s →
    ((i.operand = .aby base ∧ ix = s.regs.y) ∨ (i.operand = .abx base ∧ ix = s.regs.x) ∨
      (∃ p, i.operand = .izy p ∧ base = s.zpWord p ∧ ix = s.regs.y)) →
    ∀ row ∈ [(Mnemonic.sha, s.regs.a &&& s.regs.x, s.regs), (.shx, s.regs.x, s.regs), (.shy, s.regs.y, s.regs),
      (.tas, s.regs.a &&& s.regs.x, { s.regs with s := s.regs.a &&& s.regs.x })],
      i.mnemonic = row.1 →
        let v := row.2.1 &&& (hiByte base + 1)
        let a := if 255 < (loByte base).toNat + ix.toNat then mkWord v (loByte base + ix)
          else base + ix.setWidth 16
        ∃ t, exec i s = .next t ∧ Settled s t row.2.2 (s.pcAfter i) s.pollAnswer ∧ t.nmiPending = s.nmiPending ∧
          MemIs s t (stored s s.peek a v) ∧
          t.bus = s.bus.after 1 (leadAccesses i.operand s true ++ [.write a v])

/-- A JAM opcode at PC leaves PC one further and t = 1 with nothing else changed but the opcode fetch; from then on
a tick changes nothing at all, no host operation but reset lets it go on or changes a register, the setters update
the latch as ever, and reset returns to t = 0 and clears a latched NMI. (R103, R190) -/
def Obligations.JamHaltsUntilReset : Prop :=
  Encoded .jam [(0x02, .imp), (0x12, .imp), (0x22, .imp), (0x32, .imp), (0x42, .imp), (0x52, .imp), (0x62, .imp),
    (0x72, .imp), (0x92, .imp), (0xB2, .imp), (0xD2, .imp), (0xF2, .imp)] ∧
  (∀ op s, (Instr.jam op).wellFormed = true → Ready (.jam op) s →
    ∃ t, exec (.jam op) s = .next t ∧ t.jammed ∧ t.t = 1 ∧ t.pc = s.pc + 1 ∧ t.regs = s.regs ∧
      t.bus = s.bus.after 1 [.read s.pc] ∧ t.intRequested = s.intRequested ∧ t.nmiPending = s.nmiPending ∧
      t.nmiLine = s.nmiLine ∧ t.irqAsserted = s.irqAsserted ∧ t.params = s.params) ∧
  (∀ s, s.jammed → tick s = .next s ∧ step s = .next s) ∧
  (∀ o s, s.jammed → o ≠ .reset →
    ∃ t, hostStep o s = .next t ∧ t.jammed ∧ t.t = s.t ∧ t.pc = s.pc ∧ t.regs = s.regs ∧
      t.intRequested = s.intRequested) ∧
  (∀ s v src, s.jammed →
    hostStep (.setNmiLine v) s = .next (s.setNmiLine v) ∧ hostStep (.request src) s = .next (s.request src) ∧
    hostStep (.acknowledge src) s = .next (s.acknowledge src)) ∧
  ∀ s, s.jammed → ∃ t, hostStep .reset s = .next t ∧ t.t = 0 ∧ t.nmiPending = false

/-- Between instructions, whatever the bus answers, every instruction whose mnemonic is not JAM answers a next state
in which it is complete; it changes no parameter, no line level and no IRQ source, and keeps the platform's map.
(R13, R105, R200) -/
def Obligations.EveryInstructionButJamCompletes : Prop :=
  ∀ i s, s.t = 0 → i.mnemonic ≠ .jam →
    ∃ t, exec i s = .next t ∧ t.t = 0 ∧ t.params = s.params ∧ t.bus.regions = s.bus.regions ∧ t.nmiLine = s.nmiLine ∧
      t.irqAsserted = s.irqAsserted ∧ (i.mnemonic ≠ .brk → t.nmiPending = s.nmiPending)

/-- For two instructions of one mnemonic with the read pattern, begun with the same registers and parameters over
any two buses, devices included: the last access of each is a read, and if both read the same byte then the
registers after them are the same. (R69, R70, R108) -/
def Obligations.ReadResultDependsOnlyOnTheByteRead : Prop :=
  ∀ i j s u, i.mnemonic = j.mnemonic → (entryOf i).pattern = .read → (entryOf j).pattern = .read →
    s.t = 0 → u.t = 0 → s.regs = u.regs → s.params = u.params →
    ∃ s' u' e f l k, exec i s = .next s' ∧ exec j u = .next u' ∧ s'.bus.trace = e :: l ∧ u'.bus.trace = f :: k ∧
      e.kind = .read ∧ f.kind = .read ∧ (e.value = f.value → s'.regs = u'.regs)

/-- Between instructions with the service latch set, the step is the entry: PC (high byte first) and the status with
B = 0 and bit 5 = 1 are pushed, S is three lower, I is set, every other flag and register is as before, PC is the
word at 0xFFFE, or at 0xFFFA when an NMI is pending, which is consumed; the service latch is clear and the seven bus
accesses are these. That a write to ROM or to a device leaves every plain byte as it was is the model's choice (log
3, DESIGN CHOICE), not a rule of the spec. (R201, R203) -/
def Obligations.HardwareInterruptEntry : Prop :=
  ∀ s : State, s.t = 0 → s.intRequested = true → s.bus.mem.wf = true →
    let vec : Word := if s.nmiPending then 0xFFFA else 0xFFFE
    let top := stackAddr s.regs.s
    let below := stackAddr (s.regs.s - 1)
    let third := stackAddr (s.regs.s - 2)
    let status := pack s.regs false
    let mem := stored s (stored s (stored s s.peek top (hiByte s.pc)) below (loByte s.pc)) third status
    s.PlainAt vec → s.PlainAt (vec + 1) →
    ∃ t, step s = .next t ∧
      Settled s t { s.regs with s := s.regs.s - 3, i := true } (mkWord (s.peek (vec + 1)) (s.peek vec)) false ∧
      t.nmiPending = false ∧ MemIs s t mem ∧
      t.bus = s.bus.after 1
        [.read s.pc, .read s.pc, .write top (hiByte s.pc), .write below (loByte s.pc), .write third status, .read vec,
          .read (vec + 1)]

/-- In cycle 5 of the software BRK and of the interrupt entry alike, the tick pushes the status with B = 1 for the
BRK and 0 for the entry, and then chooses 0xFFFA and clears the pending NMI if there is one, else 0xFFFE. (R202) -/
def Obligations.VectorIsSelectedAfterTheStatusPush : Prop :=
  ∀ s : State, s.t = 4 → (s.synthetic = true ∨ s.opcode = 0x00) →
    ∃ t, tick s = .next t ∧ t.t = 5 ∧ t.vector = (if s.nmiPending then 0xFFFA else 0xFFFE) ∧ t.nmiPending = false ∧
      t.regs = { s.regs with s := s.regs.s - 1 } ∧ t.pc = s.pc ∧ t.intRequested = s.intRequested ∧
      t.bus = s.bus.write 5 (stackAddr s.regs.s) (pack s.regs (!s.synthetic))

/-- The entry ends between instructions with the service latch clear, even if another interrupt is pending, so the
next step runs the instruction at PC. (R213) -/
def Obligations.HandlersFirstInstructionRuns : Prop :=
  ∀ s : State, s.t = 0 → s.intRequested = true →
    ∃ t, step s = .next t ∧ t.t = 0 ∧ t.intRequested = false ∧
      ∀ l p, let u := { t with nmiLine := l, nmiPending := p }
        tick u = .next (beginFetch u) ∧ step u = exec (fetchInstr u) u

/-- If the bytes the bus would answer at PC, PC + 1, PC + 2 decode to i, then the step is exec of i at that state.
(R62, R66) -/
def Obligations.StepRunsTheDecodedInstruction : Prop :=
  ∀ (i : Instr) (rest : List Byte) (s : State), s.t = 0 → s.intRequested = false →
    decode [s.peek s.pc, s.peek (s.pc + 1), s.peek (s.pc + 2)] = .ok (i, rest) →
      i.wellFormed = true ∧ step s = exec i s

/-- A reading instruction at PC, its pointer plain memory and its operand on any device, makes exactly the accesses
of its template: the opcode and operand bytes, the pointer, the dummy reads (the uncorrected address only on a page
cross), and last the operand. (R75, R76, R79, R82, R85, R88, R91) -/
def Obligations.ReadBusAccesses : Prop :=
  ∀ i s, (entryOf i).pattern = .read → Ready i s →
    ∃ t, exec i s = .next t ∧
      t.bus = s.bus.after 1
        (leadAccesses i.operand s false ++ (match i.operand.effAddr s with | some a => [.read a] | none => []))

/-- An ordinary store at PC, its pointer plain memory, makes exactly the accesses of its template: the opcode and
operand bytes, the pointer, the dummy reads (the uncorrected address whether or not a page is crossed), and last the
write of its register's byte. (R77, R80, R83, R86, R89, R92) -/
def Obligations.StoreBusAccesses : Prop :=
  ∀ i s a, Ready i s → i.operand.effAddr s = some a →
    ∀ row ∈ [(Mnemonic.sta, s.regs.a), (.stx, s.regs.x), (.sty, s.regs.y), (.sax, s.regs.a &&& s.regs.x)],
      i.mnemonic = row.1 →
        ∃ t, exec i s = .next t ∧ t.bus = s.bus.after 1 (leadAccesses i.operand s true ++ [.write a row.2])

/-- A read-modify-write at PC, its pointer plain memory and its operand on anything, a device included, makes
exactly the accesses of its template, and its last three are the read of the operand, the dummy write of the byte
the bus answered, and the write of the result: a device sees two writes, the first with the old value. In plain
memory the byte answered is the one memory holds. (R78, R81, R84, R87, R90, R93, R224) -/
def Obligations.ModifyBusAccesses : Prop :=
  ∀ i s a, Ready i s → i.operand.effAddr s = some a →
    let v := s.modifyByte i.operand a
    let rol := v <<< 1 ||| (if s.regs.c then 1 else 0)
    let ror := v >>> 1 ||| (if s.regs.c then 0x80 else 0)
    ∀ row ∈ [(Mnemonic.asl, v <<< 1), (.slo, v <<< 1), (.lsr, v >>> 1), (.sre, v >>> 1), (.rol, rol), (.rla, rol),
      (.ror, ror), (.rra, ror), (.inc, v + 1), (.isc, v + 1), (.dec, v - 1), (.dcp, v - 1)],
      i.mnemonic = row.1 →
        (s.PlainAt a → v = s.peek a) ∧
        ∃ t, exec i s = .next t ∧
          t.bus = s.bus.after 1 (leadAccesses i.operand s true ++ [.read a, .write a v, .write a row.2])

/-- Between instructions, on any bus, an implied or accumulator instruction reads its opcode and the byte after it;
PHA and PHP then write the top of the stack; PLA and PLP read the top and then the byte above it. (R74, R101, R102)
-/
def Obligations.ImpliedAndStackBusAccesses : Prop :=
  (∀ i s, (entryOf i).pattern = .implied → s.t = 0 →
    ∃ t, exec i s = .next t ∧ t.bus = s.bus.after 1 [.read s.pc, .read (s.pc + 1)]) ∧
  ∀ s : State, s.t = 0 →
    let top := stackAddr s.regs.s
    (∃ t, exec .pha s = .next t ∧ t.bus = s.bus.after 1 [.read s.pc, .read (s.pc + 1), .write top s.regs.a]) ∧
    (∃ t, exec .php s = .next t ∧
      t.bus = s.bus.after 1 [.read s.pc, .read (s.pc + 1), .write top (pack s.regs true)]) ∧
    (∃ t, exec .pla s = .next t ∧
      t.bus = s.bus.after 1 [.read s.pc, .read (s.pc + 1), .read top, .read (stackAddr (s.regs.s + 1))]) ∧
    ∃ t, exec .plp s = .next t ∧
      t.bus = s.bus.after 1 [.read s.pc, .read (s.pc + 1), .read top, .read (stackAddr (s.regs.s + 1))]

/-- From a boundary with the instruction at PC and no interrupt to serve, the first return to t = 0 is after exactly
the cycles of R105, its conditional cycles included; an interrupt entry takes seven; a JAM never returns to t = 0.
(R105) -/
def Obligations.CycleCountsAreDocumented : Prop :=
  (∀ i s n, i.wellFormed = true → Ready i s → s.intRequested = false → cyclesOf i s = some n →
    (∃ t, ticks n s = .next t ∧ t.t = 0) ∧ ∀ k, 0 < k → k < n → ∃ t, ticks k s = .next t ∧ t.t ≠ 0) ∧
  (∀ i : Instr, i.mnemonic ≠ .jam → ∀ s, ∃ n, cyclesOf i s = some n ∧ 2 ≤ n ∧ n ≤ 8) ∧
  (∀ s : State, s.t = 0 → s.intRequested = true →
    (∃ t, ticks 7 s = .next t ∧ t.t = 0) ∧ ∀ k, 0 < k → k < 7 → ∃ t, ticks k s = .next t ∧ t.t ≠ 0) ∧
  ∀ op s, (Instr.jam op).wellFormed = true → Ready (.jam op) s → s.intRequested = false →
    ∀ k, 0 < k → ∃ t, ticks k s = .next t ∧ t.t = 1

/-- A tick that answers a next state adds exactly one event, a read or a write, in the cycle it executes, to the bus
trace, unless the core is halted by a JAM, when it changes nothing; the reset entry point adds exactly two reads.
(R39) -/
def Obligations.OneBusAccessPerTick : Prop :=
  (∀ s t, tick s = .next t → ¬ s.jammed →
    ∃ e, t.bus.trace = e :: s.bus.trace ∧ (e.kind = .read ∨ e.kind = .write) ∧ e.cycle = s.t.val + 1) ∧
  (∀ s, s.jammed → tick s = .next s) ∧
  ∀ s : State, ∃ e f, s.resetEntry.bus.trace = e :: f :: s.bus.trace ∧ e.kind = .read ∧ f.kind = .read

/-- Of the 256 entries of the table 151 are official and 105 unofficial (R60). It passes the construction check: 256
entries, each with the documented byte length and base cycle count, and with the conditional cycles its pattern and
mode give it (the page-cross penalty and the branch's two, R105; a check of the model's beside R107's two
assertions). A table that holds an entry failing any of these is refused. (R60, R104, R105, R106, R107) -/
def Obligations.OpcodeTablePassesTheConstructionCheck : Prop :=
  tableOk opcodeTable = true ∧ (∀ l : List Entry, (∃ e ∈ l, e.wellFormed = false) → tableOk l = false) ∧
  (opcodeTable.filter fun e => e.official).length = 151 ∧ (opcodeTable.filter fun e => !e.official).length = 105

/-- For every instruction begun between instructions on any bus: A, X, Y, S, N, Z, V, C, I and D are unchanged by
every mnemonic outside the rule's list of writers. (R15, R16, R17, R18, R25) -/
def Obligations.RegistersAndFlagsHaveOnlyTheirWriters : Prop :=
  ∀ i s t, s.t = 0 → exec i s = .next t →
    let m := i.mnemonic
    (m ∉ [.lda, .pla, .txa, .tya, .adc, .sbc, .and, .ora, .eor, .asl, .lsr, .rol, .ror, .lax, .slo, .rla, .sre, .rra,
      .isc, .anc, .alr, .arr, .ane, .lxa, .las, .usbc] → t.regs.a = s.regs.a) ∧
    (m ∉ [.ldx, .tax, .tsx, .inx, .dex, .lax, .lxa, .sbx, .las] → t.regs.x = s.regs.x) ∧
    (m ∉ [.ldy, .tay, .iny, .dey] → t.regs.y = s.regs.y) ∧
    (m ∉ [.txs, .tas, .las, .pha, .php, .pla, .plp, .jsr, .rts, .rti, .brk] → t.regs.s = s.regs.s) ∧
    (m ∉ [.lda, .ldx, .ldy, .tax, .tay, .txa, .tya, .tsx, .inc, .dec, .inx, .iny, .dex, .dey, .and, .ora, .eor, .adc,
      .sbc, .cmp, .cpx, .cpy, .asl, .lsr, .rol, .ror, .pla, .lax, .slo, .rla, .sre, .rra, .dcp, .isc, .anc, .alr,
        .arr,
      .ane, .lxa, .sbx, .las, .usbc, .bit, .plp, .rti] → t.regs.n = s.regs.n ∧ t.regs.z = s.regs.z) ∧
    (m ∉ [.adc, .sbc, .rra, .isc, .usbc, .bit, .clv, .arr, .plp, .rti] → t.regs.v = s.regs.v) ∧
    (m ∉ [.adc, .sbc, .rra, .isc, .usbc, .cmp, .cpx, .cpy, .dcp, .sbx, .asl, .lsr, .rol, .ror, .slo, .rla, .sre, .anc,
      .alr, .arr, .clc, .sec, .plp, .rti] → t.regs.c = s.regs.c) ∧
    (m ∉ [.cli, .sei, .plp, .rti, .brk] → t.regs.i = s.regs.i) ∧
    (m ∉ [.cld, .sed, .plp, .rti] → t.regs.d = s.regs.d)

/-- Two runs of an instruction other than PHP and BRK from states that differ only in D end in states that differ at
most in D: decimal mode is never entered. (R26, R109) -/
def Obligations.DecimalFlagIsReadOnlyByPack : Prop :=
  ∀ (i : Instr) (s : State) (b : Bool), s.t = 0 → i.mnemonic ≠ .php → i.mnemonic ≠ .brk →
    ∃ t u, exec i s = .next t ∧ exec i { s with regs := { s.regs with d := b } } = .next u ∧
      { u with regs := { u.regs with d := t.regs.d } } = t

/-- The setter stores the level, sets the pending bit on a 1 to 0 transition and otherwise leaves it, and changes
nothing else; setting the level it already has changes nothing; a release and a second edge leave the bit set; the
getters return the level and whether any source asserts. (R191, R195) -/
def Obligations.NmiEdgeLatchesOnce : Prop :=
  ∀ (s : State) (v : Bool),
    (s.setNmiLine v).nmiLine = v ∧
    (s.setNmiLine v).nmiPending = (if s.nmiLine = true ∧ v = false then true else s.nmiPending) ∧
    { s.setNmiLine v with nmiLine := s.nmiLine, nmiPending := s.nmiPending } = s ∧
    s.setNmiLine s.nmiLine = s ∧
    (s.nmiLine = true → ((s.setNmiLine false).setNmiLine true).setNmiLine false = s.setNmiLine false) ∧
    s.getNmiLine = s.nmiLine ∧ (s.getIrqLine = true ↔ ∃ src, src ∈ s.irqAsserted)

/-- For IRQ sources held as a set (log 2): after request exactly the named source is added, after acknowledge
exactly it is gone; a second call changes nothing; the set stays a set and no other field changes. (R192, R193) -/
def Obligations.IrqRequestAndAcknowledgeAreASet : Prop :=
  ∀ (s : State) (src x : Nat), rising s.irqAsserted = true →
    (x ∈ (s.request src).irqAsserted ↔ x = src ∨ x ∈ s.irqAsserted) ∧
    (x ∈ (s.acknowledge src).irqAsserted ↔ x ≠ src ∧ x ∈ s.irqAsserted) ∧
    (s.request src).request src = s.request src ∧ (s.acknowledge src).acknowledge src = s.acknowledge src ∧
    (src ∉ s.irqAsserted → s.acknowledge src = s) ∧ (src ∈ s.irqAsserted → s.request src = s) ∧
    rising (s.request src).irqAsserted = true ∧ rising (s.acknowledge src).irqAsserted = true ∧
    { s.request src with irqAsserted := s.irqAsserted } = s ∧ { s.acknowledge src with irqAsserted := s.irqAsserted }
      = s

/-- IRQ masking: between instructions with I = 1, no pending NMI and the latch clear, every instruction but RTI that
completes leaves the latch clear; with I = 0 and a source asserting, every instruction but RTI and BRK sets it; a
pending NMI is never masked. (R194, R197) -/
def Obligations.MaskedIrqIsNeverServed : Prop :=
  ∀ i s t, s.t = 0 → s.intRequested = false → exec i s = .next t → t.t = 0 → i.mnemonic ≠ .rti →
    (s.regs.i = true → s.nmiPending = false → t.intRequested = false) ∧
    (i.mnemonic ≠ .brk → s.nmiPending = true → t.intRequested = true) ∧
    (i.mnemonic ≠ .brk → s.regs.i = false → s.irqAsserted ≠ [] → t.intRequested = true)

/-- For every tick: at t = 0 it is cleared by an entry and else kept; within a sequence it takes the poll's answer
for a branch at cycle 2, for a software BRK at its last cycle if P_BRK_POLLS, for every other instruction at its
last cycle, and is otherwise kept; the entry and JAM never poll. (R72, R198) -/
def Obligations.PollPointsAreThoseOfTheRule : Prop :=
  ∀ s t, tick s = .next t →
    let e := entryAt s.opcode
    t.intRequested =
      if s.t = 0 then false
      else if s.synthetic = true ∨ e.pattern = .halt then s.intRequested
      else if e.pattern = .branch then (if s.t = 1 then s.pollAnswer else s.intRequested)
      else if e.mnemonic = .brk then (if t.t = 0 ∧ s.params.brkPolls = true then s.pollAnswer else s.intRequested)
      else if t.t = 0 then s.pollAnswer else s.intRequested

/-- From I = 1 with a source asserting and no NMI pending, CLI leaves the latch clear and the next instruction (not
RTI, BRK or JAM) sets it. From I = 0 with a source asserting, SEI sets the latch and the entry that follows pushes a
status with I = 1. PLP polls with the I before it, whichever I it pulls. (R220) -/
def Obligations.CliSeiPlpTakeEffectOneInstructionLate : Prop :=
  ∀ s : State, s.t = 0 → s.nmiPending = false → s.irqAsserted ≠ [] →
    (s.regs.i = true → ∃ t, exec .cli s = .next t ∧ t.t = 0 ∧ t.regs.i = false ∧ t.intRequested = false ∧
      ∀ j : Instr, j.mnemonic ≠ .rti → j.mnemonic ≠ .brk → j.mnemonic ≠ .jam →
        ∃ u, exec j t = .next u ∧ u.intRequested = true) ∧
    (s.regs.i = false → ∃ t u v k w, exec .sei s = .next t ∧ t.t = 0 ∧ t.regs.i = true ∧ t.intRequested = true ∧
      ticks 4 t = .next u ∧ tick u = .next v ∧
      v.bus.trace = { cycle := 5, kind := .write, addr := k, value := w } :: u.bus.trace ∧ w.getLsbD 2 = true) ∧
    ∃ t, exec .plp s = .next t ∧ t.t = 0 ∧ t.intRequested = !s.regs.i

/-- With plain memory at the status byte RTI pulls, if that byte has bit 2 clear and a source asserts, then after
RTI the next step is the interrupt entry, before the instruction at the return address. (R221) -/
def Obligations.RtiAllowsAnIrqAtOnce : Prop :=
  ∀ s : State, s.t = 0 → s.irqAsserted ≠ [] → s.PlainAt (stackAddr (s.regs.s + 1)) →
    (s.peek (stackAddr (s.regs.s + 1))).getLsbD 2 = false →
    ∃ t, exec .rti s = .next t ∧ t.t = 0 ∧ t.regs.i = false ∧ t.intRequested = true ∧ step t = takeInterrupt t ∧
      tick t = .next (beginEntry t)

/-- Whatever the state, t included, reset reads the two bytes at 0xFFFC (low byte first), loads PC from them, sets S
to 0xFD and I to 1, clears t, the opcode, the scratch fields and the latches, keeps A, X, Y, N, V, D, Z, C, nmiLine,
irqAsserted and memory, and the next tick fetches an opcode at the new PC. (R216) -/
def Obligations.ResetEntryFromAnyState : Prop :=
  ∀ s : State, s.PlainAt 0xFFFC → s.PlainAt 0xFFFD →
    ∃ t, hostStep .reset s = .next t ∧
      t.pc = mkWord (s.peek 0xFFFD) (s.peek 0xFFFC) ∧ t.regs = { s.regs with s := 0xFD, i := true } ∧
      t.t = 0 ∧ t.opcode = 0 ∧ t.synthetic = false ∧ t.operand = 0 ∧ t.addrLo = 0 ∧ t.addrHi = 0 ∧ t.ptrLo = 0 ∧
      t.ptrHi = 0 ∧ t.pageCross = false ∧ t.vector = 0 ∧ t.nmiPending = false ∧ t.intRequested = false ∧
      t.nmiLine = s.nmiLine ∧ t.irqAsserted = s.irqAsserted ∧ t.params = s.params ∧ t.bus.mem = s.bus.mem ∧
      t.bus = (s.bus.read 0 0xFFFC).read 0 0xFFFD ∧ tick t = .next (beginFetch t)

/-- Under P_POWERON = zero A, X, Y and N, V, D, Z, C are 0, under draw the values drawn; in both I = 1, S = 0xFD, t
= 0, the NMI line released, no source, no latch set, and PC the word at 0xFFFC. State.reset is that state over an
empty RAM bus with the default parameters; that bus (so PC = 0) and the choice of zero are the model's, logs 4 to 7.
(R35, R217) -/
def Obligations.PowerOnState : Prop :=
  (∀ (p : Config.Params) (w : Config.PowerOn) (b : Bus), b.kindAt 0xFFFC ≠ .device → b.kindAt 0xFFFD ≠ .device →
    let s := powerOn p w b
    s.regs = { powerOnRegs w with s := 0xFD, i := true } ∧ s.pc = mkWord (b.answer 0xFFFD) (b.answer 0xFFFC) ∧
    s.t = 0 ∧ s.nmiLine = true ∧ s.nmiPending = false ∧ s.irqAsserted = [] ∧ s.intRequested = false ∧ s.params = p ∧
    s.bus.mem = b.mem) ∧
  (∀ a x y n v d z c, powerOnRegs (.draw a x y n v d z c) =
    { a := a, x := x, y := y, s := 0, n := n, v := v, d := d, i := false, z := z, c := c }) ∧
  powerOnRegs .zero =
    { a := 0, x := 0, y := 0, s := 0, n := false, v := false, d := false, i := false, z := false, c := false } ∧
  State.reset = powerOn Config.defaultParams .zero { mem := [], regions := [], trace := [] }

/-- Each bit of the packed status is its flag, bit 5 is 1 and bit 4 the break bit given; unpack writes the six flags
from bits 7, 6, 3, 2, 1, 0 whatever bits 5 and 4 are, and leaves A, X, Y, S alone. (R22, R24) -/
def Obligations.StatusByteLayout : Prop :=
  (∀ (r : Regs) (b : Bool),
    (pack r b).getLsbD 7 = r.n ∧ (pack r b).getLsbD 6 = r.v ∧ (pack r b).getLsbD 5 = true ∧
    (pack r b).getLsbD 4 = b ∧ (pack r b).getLsbD 3 = r.d ∧ (pack r b).getLsbD 2 = r.i ∧
    (pack r b).getLsbD 1 = r.z ∧ (pack r b).getLsbD 0 = r.c ∧ unpack r (pack r b) = r) ∧
  ∀ (r : Regs) (v : Byte),
    unpack r v =
      { r with
        n := v.getLsbD 7, v := v.getLsbD 6, d := v.getLsbD 3, i := v.getLsbD 2, z := v.getLsbD 1, c := v.getLsbD 0 } ∧
    unpack r (v ||| 0x30) = unpack r v ∧ unpack r (v &&& 0xCF) = unpack r v

/-- For every well-formed instruction, with every operand, and any bytes after it, the decoder gives back that
instruction and those bytes. (R54, R56, R59, R62) -/
def Obligations.DecodeOfEncodeIsTheInstruction : Prop :=
  ∀ (i : Instr) (rest : List Byte), i.wellFormed = true → decode (encode i ++ rest) = .ok (i, rest)

/-- Any three or more bytes decode; whatever decodes is a well-formed instruction whose encoding is exactly the
bytes consumed; its length is 1, 2 or 3; so two well-formed instructions with the same encoding are the same. (R61)
-/
def Obligations.EveryByteStringDecodesOneWay : Prop :=
  (∀ bs : List Byte, 3 ≤ bs.length → ∃ i rest, decode bs = .ok (i, rest)) ∧
  (∀ (bs rest : List Byte) (i : Instr), decode bs = .ok (i, rest) →
    i.wellFormed = true ∧ bs = encode i ++ rest ∧ 1 ≤ i.length ∧ i.length ≤ 3) ∧
  ∀ i j : Instr, i.wellFormed = true → j.wellFormed = true → encode i = encode j → i = j

/-- A few encodings written out byte by byte decode to the instruction they stand for: ADC #0x10, LDA 0x10FF,X, STA
(0x20),Y, ASL A, ROR 0x44,X, BNE -2, JMP (0x02FF), PHP, CLI, SLO 0x10, SHX 0x20F0,Y, JAM 0x92, BRK. (R54, R59) -/
def Obligations.WrittenOutWordsDecode : Prop :=
  decode [0x69, 0x10] = .ok (.adcImm 0x10, []) ∧ decode [0xBD, 0xFF, 0x10] = .ok (.ldaAbx 0x10FF, []) ∧
  decode [0x91, 0x20] = .ok (.staIzy 0x20, []) ∧ decode [0x0A, 0x77] = .ok (.aslAcc, [0x77]) ∧
  decode [0x76, 0x44] = .ok (.rorZpx 0x44, []) ∧ decode [0xD0, 0xFE] = .ok (.bne 0xFE, []) ∧
  decode [0x6C, 0xFF, 0x02] = .ok (.jmpInd 0x02FF, []) ∧ decode [0x08] = .ok (.php, []) ∧
  decode [0x58] = .ok (.cli, []) ∧ decode [0x07, 0x10] = .ok (.sloZp 0x10, []) ∧
  decode [0x9E, 0xF0, 0x20] = .ok (.shx 0x20F0, []) ∧ decode [0x92] = .ok (.jam 0x92, []) ∧
  decode [0x00, 0xEA] = .ok (.brk 0xEA, [])

/-- From every state that meets the invariant (memory in canonical form, the IRQ sources a set, t between
instructions or within the active sequence), each operation of the host table, the tick among them, and each access
of a DMA stage answers a next state, and that state meets the invariant. (R13, R30, R200, R206) -/
def Obligations.HostOperationsKeepTheInvariant : Prop :=
  ∀ (o : HostOp) (s : State), Invariant s → ∃ t, hostStep o s = .next t ∧ Invariant t

/-- From every state that meets the invariant, the step answers a next state that meets it, and the machine is then
between instructions or halted by a JAM. (R13, R30, R200) -/
def Obligations.StepKeepsTheInvariant : Prop :=
  ∀ s, Invariant s → ∃ t, step s = .next t ∧ Invariant t ∧ (t.t = 0 ∨ t.jammed)

/-- The invariant holds at State.reset and after power-on with any parameters, any draw and any bus whose memory is
in canonical form. (R30, R217) -/
def Obligations.ResetMeetsTheInvariant : Prop :=
  Invariant State.reset ∧ ∀ p w b, b.mem.wf = true → Invariant (powerOn p w b)

/-- From every state that meets the invariant, the instruction-level step (the model's own, log 1) gives exactly the
state that repeated ticks of the spec's step entry point give at the first return to t = 0, a JAM staying where it
is. (R10, R65, R66) -/
def Obligations.StepIsTheTicksToTheBoundary : Prop :=
  ∀ s, Invariant s → step s = ticksToBoundary 8 s

/-- From every state that meets the invariant with an NMI pending, within at most ten ticks the core is at t = 0
with the service latch set, or the NMI has been consumed, or a JAM has halted the core. (R212, R214) -/
def Obligations.NmiIsServedWithinTenTicks : Prop :=
  ∀ s, Invariant s → s.nmiPending = true →
    ∃ n t, n ≤ 10 ∧ ticks n s = .next t ∧ ((t.t = 0 ∧ t.intRequested = true) ∨ t.nmiPending = false ∨ t.jammed)

/-- With memory in canonical form, after a write by the core or by a DMA stage every plain byte reads as before
except the RAM byte written; equal contents are equal memories; and an STA into the byte after itself, RAM, is what
the next fetch reads. That a write to RAM is what later reads return is R41 and R49; that a write to ROM or to a
device, by the core or by a DMA stage, leaves every plain byte as it was is the model's choice (logs 3 and 16,
DESIGN CHOICE), not a rule of the spec. (R41, R49, R52, R223) -/
def Obligations.MemoryReadsTheLastWrite : Prop :=
  (∀ (s : State) (c : Nat) (a b : Word) (v : Byte), s.bus.mem.wf = true → s.PlainAt b →
    (s.bus.write c a v).answer b = stored s s.peek a v b ∧ (s.dmaWrite a v).peek b = stored s s.peek a v b) ∧
  (∀ m n : Memory, m.wf = true → n.wf = true → (∀ k, m.read k = n.read k) → m = n) ∧
  ∀ s, Ready (.staAbs (s.pc + 3)) s → s.bus.kindAt (s.pc + 3) = .ram →
    ∃ t, exec (.staAbs (s.pc + 3)) s = .next t ∧ t.pc = s.pc + 3 ∧ (beginFetch t).opcode = s.regs.a
end

