-- ==== Sys2Proof/Laws/Memory.lean ====
section
/-! SUPPORT. Memory: a read after a write, and the canonical form, which every operation keeps and which makes equal
memories equal data. -/

namespace Sys2Proof.Machine

open Sys2Proof

@[simp] theorem Memory.read_nil (k : Nat) : Memory.read [] k = unlisted := rfl

theorem Memory.read_cons (a : Nat) (v : Byte) (m : Memory) (k : Nat) :
    Memory.read ((a, v) :: m) k = if a = k then v else Memory.read m k := rfl

/-- What `wfFrom` says of a list with a first entry. -/
theorem Memory.wfFrom_cons {lo a : Nat} {v : Byte} {m : Memory} :
    Memory.wfFrom lo ((a, v) :: m) = true ↔
      lo ≤ a ∧ a < 65536 ∧ v ≠ unlisted ∧ Memory.wfFrom (a + 1) m = true := by
  simp [Memory.wfFrom, and_assoc]

theorem Memory.wfFrom_mono {lo lo' : Nat} (h : lo' ≤ lo) : ∀ {m : Memory}, Memory.wfFrom lo m = true →
    Memory.wfFrom lo' m = true
  | [], _ => rfl
  | (_, _) :: _, hm => by
    rw [Memory.wfFrom_cons] at hm ⊢
    exact ⟨Nat.le_trans h hm.1, hm.2⟩

/-- An address below the first one of a canonical memory is not listed. -/
theorem Memory.read_below {lo k : Nat} (h : k < lo) : ∀ {m : Memory}, Memory.wfFrom lo m = true →
    m.read k = unlisted
  | [], _ => rfl
  | (a, v) :: m, hm => by
    rw [Memory.wfFrom_cons] at hm
    have ha : a ≠ k := by omega
    rw [Memory.read_cons, if_neg ha]
    exact Memory.read_below (by omega) hm.2.2.2

/-- A write at or above `lo` keeps the canonical form from `lo`. -/
theorem Memory.wfFrom_write {k : Nat} {v : Byte} (hk : k < 65536) : ∀ {lo : Nat} {m : Memory}, lo ≤ k →
    Memory.wfFrom lo m = true → Memory.wfFrom lo (m.write k v) = true
  | lo, [], hlo, _ => by
    simp only [Memory.write]
    split
    · rfl
    · next h => rw [Memory.wfFrom_cons]; exact ⟨hlo, hk, h, rfl⟩
  | lo, (a, w) :: m, hlo, hm => by
    have hm' := hm
    rw [Memory.wfFrom_cons] at hm
    obtain ⟨h1, h2, h3, h4⟩ := hm
    simp only [Memory.write]
    split
    · next hka =>
      split
      · exact hm'
      · next h => rw [Memory.wfFrom_cons, Memory.wfFrom_cons]; exact ⟨hlo, hk, h, hka, h2, h3, h4⟩
    · split
      · next hka =>
        split
        · exact Memory.wfFrom_mono (by omega) h4
        · next h => rw [Memory.wfFrom_cons]; exact ⟨hlo, hk, h, hka ▸ h4⟩
      · rw [Memory.wfFrom_cons]
        exact ⟨h1, h2, h3, Memory.wfFrom_write hk (by omega) h4⟩

/-- A write inside the address space keeps the canonical form. -/
theorem Memory.wf_write {m : Memory} {k : Nat} {v : Byte} (hk : k < 65536) (hm : m.wf = true) :
    (m.write k v).wf = true := Memory.wfFrom_write hk (Nat.zero_le k) hm

/-- A read after a write gives the written byte at its address and the old byte elsewhere. -/
theorem Memory.read_write_from (k j : Nat) (v : Byte) : ∀ {lo : Nat} {m : Memory}, Memory.wfFrom lo m = true →
    (m.write k v).read j = if j = k then v else m.read j
  | _, [], _ => by
    simp only [Memory.write]
    split
    · next h => subst h; simp
    · simp only [Memory.read_cons, Memory.read_nil, eq_comm]
  | _, (a, w) :: m, hm => by
    rw [Memory.wfFrom_cons] at hm
    obtain ⟨h1, h2, h3, h4⟩ := hm
    simp only [Memory.write]
    split
    · next hka =>
      split
      · next h =>
        subst h
        by_cases hj : j = k
        · subst hj
          rw [if_pos rfl, Memory.read_cons, if_neg (by omega)]
          exact Memory.read_below (by omega) h4
        · rw [if_neg hj]
      · simp only [Memory.read_cons, eq_comm]
    · split
      · next hka =>
        subst hka
        split
        · next h =>
          subst h
          by_cases hj : j = k
          · subst hj
            rw [if_pos rfl]
            exact Memory.read_below (by omega) h4
          · rw [if_neg hj, Memory.read_cons, if_neg (Ne.symm hj)]
        · by_cases hj : j = k
          · subst hj; simp [Memory.read_cons]
          · simp [Memory.read_cons, hj, Ne.symm hj]
      · next hka hne =>
        rw [Memory.read_cons, Memory.read_cons, Memory.read_write_from k j v h4]
        by_cases hj : a = j
        · subst hj; simp [Ne.symm hne]
        · simp [hj]

/-- A read after a write (20_memory R49, the RAM premise of R41). -/
theorem Memory.read_write {m : Memory} (hm : m.wf = true) (k j : Nat) (v : Byte) :
    (m.write k v).read j = if j = k then v else m.read j := Memory.read_write_from k j v hm

/-- Two canonical memories that read the same everywhere are the same list. -/
theorem Memory.ext_from : ∀ {lo : Nat} {m n : Memory}, Memory.wfFrom lo m = true → Memory.wfFrom lo n = true →
    (∀ k, m.read k = n.read k) → m = n
  | _, [], [], _, _, _ => rfl
  | _, [], (b, w) :: n, _, hn, h => by
    rw [Memory.wfFrom_cons] at hn
    have := h b
    rw [Memory.read_cons, if_pos rfl, Memory.read_nil] at this
    exact absurd this.symm hn.2.2.1
  | _, (a, v) :: m, [], hm, _, h => by
    rw [Memory.wfFrom_cons] at hm
    have := h a
    rw [Memory.read_cons, if_pos rfl, Memory.read_nil] at this
    exact absurd this hm.2.2.1
  | _, (a, v) :: m, (b, w) :: n, hm, hn, h => by
    rw [Memory.wfFrom_cons] at hm hn
    obtain ⟨-, -, hv, hm⟩ := hm
    obtain ⟨-, -, hw, hn⟩ := hn
    have hab : a = b := by
      by_contra hab
      rcases Nat.lt_or_gt_of_ne hab with hlt | hlt
      · have := h a
        rw [Memory.read_cons, if_pos rfl, Memory.read_cons, if_neg (by omega),
          Memory.read_below (by omega) hn] at this
        exact hv this
      · have := h b
        rw [Memory.read_cons, if_neg (by omega), Memory.read_cons, if_pos rfl,
          Memory.read_below (by omega) hm] at this
        exact hw this.symm
    subst hab
    have hvw : v = w := by simpa [Memory.read_cons] using h a
    subst hvw
    have : m = n := Memory.ext_from hm hn fun k => by
      by_cases hk : a = k
      · subst hk
        rw [Memory.read_below (by omega) hm, Memory.read_below (by omega) hn]
      · simpa [Memory.read_cons, hk] using h k
    rw [this]

/-- Equal memories are equal data. -/
theorem Memory.ext {m n : Memory} (hm : m.wf = true) (hn : n.wf = true) (h : ∀ k, m.read k = n.read k) : m = n :=
  Memory.ext_from hm hn h

theorem Memory.wf_nil : Memory.wf [] = true := rfl

end Sys2Proof.Machine
end

