-- ==== Sys2Proof/Laws/Bus.lean ====
section
/-! SUPPORT. The bus: what a read and a write leave, and what plain memory answers. -/

namespace Sys2Proof.Machine

open Sys2Proof

@[simp] theorem Bus.log_mem (b : Bus) (e : BusEvent) : (b.log e).mem = b.mem := rfl
@[simp] theorem Bus.log_regions (b : Bus) (e : BusEvent) : (b.log e).regions = b.regions := rfl
@[simp] theorem Bus.log_trace (b : Bus) (e : BusEvent) : (b.log e).trace = e :: b.trace := rfl
@[simp] theorem Bus.log_kindAt (b : Bus) (e : BusEvent) (a : Word) : (b.log e).kindAt a = b.kindAt a := rfl

@[simp] theorem Bus.read_mem (b : Bus) (c : Nat) (x : Word) : (b.read c x).mem = b.mem := rfl
@[simp] theorem Bus.read_regions (b : Bus) (c : Nat) (x : Word) : (b.read c x).regions = b.regions := rfl
@[simp] theorem Bus.read_trace (b : Bus) (c : Nat) (x : Word) :
    (b.read c x).trace = { cycle := c, kind := .read, addr := x, value := b.answer x } :: b.trace := rfl
@[simp] theorem Bus.read_kindAt (b : Bus) (c : Nat) (x a : Word) : (b.read c x).kindAt a = b.kindAt a := rfl

@[simp] theorem Bus.write_mem (b : Bus) (c : Nat) (x : Word) (v : Byte) : (b.write c x v).mem = b.memAfter x v := rfl
@[simp] theorem Bus.write_regions (b : Bus) (c : Nat) (x : Word) (v : Byte) :
    (b.write c x v).regions = b.regions := rfl
@[simp] theorem Bus.write_trace (b : Bus) (c : Nat) (x : Word) (v : Byte) :
    (b.write c x v).trace = { cycle := c, kind := .write, addr := x, value := v } :: b.trace := rfl
@[simp] theorem Bus.write_kindAt (b : Bus) (c : Nat) (x a : Word) (v : Byte) :
    (b.write c x v).kindAt a = b.kindAt a := rfl

/-- Where no device stands, a read answers what memory holds. -/
theorem Bus.answer_plain {b : Bus} {a : Word} (h : b.kindAt a ≠ .device) : b.answer a = b.mem.read a.toNat := by
  unfold Bus.answer
  split <;> first | rfl | contradiction

/-- A read of the bus changes no plain byte. -/
theorem Bus.answer_read {b : Bus} {a : Word} (h : b.kindAt a ≠ .device) (c : Nat) (x : Word) :
    (b.read c x).answer a = b.answer a := by
  rw [Bus.answer_plain (b := b.read c x) (by simpa using h), Bus.answer_plain h, Bus.read_mem]

/-- A write of the bus keeps the canonical form of memory. -/
theorem Bus.wf_memAfter {b : Bus} (h : b.mem.wf = true) (a : Word) (v : Byte) : (b.memAfter a v).wf = true := by
  unfold Bus.memAfter
  split
  · exact Memory.wf_write a.isLt h
  · exact h
  · exact h

/-- A write of the bus is seen at its address if RAM stands there, and nowhere else. -/
theorem Bus.answer_write {b : Bus} {a : Word} (hm : b.mem.wf = true) (h : b.kindAt a ≠ .device) (c : Nat) (x : Word)
    (v : Byte) :
    (b.write c x v).answer a = if a = x ∧ b.kindAt x = .ram then v else b.answer a := by
  rw [Bus.answer_plain (b := b.write c x v) (by simpa using h), Bus.answer_plain h, Bus.write_mem]
  unfold Bus.memAfter
  split
  · next hk => rw [Memory.read_write hm]; simp [hk, BitVec.toNat_inj]
  · next hk => simp [hk]
  · next hk => simp [hk]

@[simp] theorem Bus.after_nil (b : Bus) (c : Nat) : b.after c [] = b := rfl
@[simp] theorem Bus.after_read (b : Bus) (c : Nat) (a : Word) (l : List Access) :
    b.after c (.read a :: l) = (b.read c a).after (c + 1) l := rfl
@[simp] theorem Bus.after_write (b : Bus) (c : Nat) (a : Word) (v : Byte) (l : List Access) :
    b.after c (.write a v :: l) = (b.write c a v).after (c + 1) l := rfl

/-- As many events are recorded as accesses are made. -/
theorem Bus.after_trace_length (l : List Access) : ∀ (b : Bus) (c : Nat),
    (b.after c l).trace.length = b.trace.length + l.length := by
  induction l with
  | nil => intro b c; rfl
  | cons x l ih => intro b c; cases x <;> simp [ih] <;> omega

end Sys2Proof.Machine
end

