-- ==== Sys2Proof/Laws/Bytes.lean ====
section
/-! SUPPORT. Bytes and words: splitting, joining and the index addition on the low byte first. -/

namespace Sys2Proof

theorem mkWord_toNat (h l : Byte) : (mkWord h l).toNat = h.toNat * 256 + l.toNat := by
  have := l.isLt
  rw [mkWord, BitVec.toNat_append, Nat.shiftLeft_eq, Nat.mul_comm, ← Nat.two_pow_add_eq_or_of_lt (by omega), Nat.mul_comm]

theorem loByte_toNat (w : Word) : (loByte w).toNat = w.toNat % 256 := by simp [loByte]

theorem hiByte_toNat (w : Word) : (hiByte w).toNat = w.toNat / 256 := by
  have := w.isLt
  simp [hiByte, Nat.shiftRight_eq_div_pow]
  omega

@[simp] theorem loByte_mkWord (h l : Byte) : loByte (mkWord h l) = l := by
  apply BitVec.eq_of_toNat_eq
  have := l.isLt
  rw [loByte_toNat, mkWord_toNat]
  omega

@[simp] theorem hiByte_mkWord (h l : Byte) : hiByte (mkWord h l) = h := by
  apply BitVec.eq_of_toNat_eq
  have := l.isLt
  rw [hiByte_toNat, mkWord_toNat]
  omega

@[simp] theorem mkWord_hi_lo (w : Word) : mkWord (hiByte w) (loByte w) = w := by
  apply BitVec.eq_of_toNat_eq
  rw [mkWord_toNat, hiByte_toNat, loByte_toNat]
  omega

/-- The corrected address is the 16-bit sum of the base and the index (40_sequencer R85, 30_encoding R55). -/
theorem mkWord_indexed (h l ix : Byte) :
    mkWord (if indexCarry l ix then h + 1 else h) (indexLow l ix) = mkWord h l + ix.setWidth 16 := by
  apply BitVec.eq_of_toNat_eq
  have := l.isLt
  have := h.isLt
  have := ix.isLt
  rw [mkWord_toNat, BitVec.toNat_add, mkWord_toNat, BitVec.toNat_setWidth]
  simp only [indexCarry, indexLow, decide_eq_true_eq]
  split <;> simp only [BitVec.toNat_add, BitVec.ofNat_eq_ofNat, BitVec.toNat_ofNat] <;> omega

/-- No page crossed: the uncorrected address is the sum. -/
theorem indexed_same {w : Word} {ix : Byte} (hx : indexCarry (loByte w) ix = false) :
    mkWord (hiByte w) (indexLow (loByte w) ix) = w + ix.setWidth 16 := by
  have := mkWord_indexed (hiByte w) (loByte w) ix
  rwa [hx, mkWord_hi_lo] at this

/-- A page crossed: the corrected address is the sum. -/
theorem indexed_cross {w : Word} {ix : Byte} (hx : indexCarry (loByte w) ix = true) :
    mkWord (hiByte w + 1) (indexLow (loByte w) ix) = w + ix.setWidth 16 := by
  have := mkWord_indexed (hiByte w) (loByte w) ix
  rwa [hx, mkWord_hi_lo] at this

/-- Either way, the corrected address is the sum. -/
theorem indexed_sum (w : Word) (ix : Byte) :
    mkWord (if indexCarry (loByte w) ix then hiByte w + 1 else hiByte w) (indexLow (loByte w) ix)
      = w + ix.setWidth 16 := by
  rw [mkWord_indexed, mkWord_hi_lo]

/-- The stack is page 1 (20_memory R46). -/
theorem stackAddr_toNat (x : Byte) : (stackAddr x).toNat = 256 + x.toNat :=
  (by decide : ∀ x : Byte, (stackAddr x).toNat = 256 + x.toNat) x

end Sys2Proof
end

