-- ==== Sys2Proof/Laws/State.lean ====
section
/-! SUPPORT. What each named update of the state does to each field: one lemma per field per update. -/

namespace Sys2Proof.Machine

open Sys2Proof


/-! ## State.clearScratch -/

@[simp] theorem State.clearScratch_params (s : State) : (s.clearScratch).params = s.params := rfl
@[simp] theorem State.clearScratch_regs (s : State) : (s.clearScratch).regs = s.regs := rfl
@[simp] theorem State.clearScratch_pc (s : State) : (s.clearScratch).pc = s.pc := rfl
@[simp] theorem State.clearScratch_opcode (s : State) : (s.clearScratch).opcode = s.opcode := rfl
@[simp] theorem State.clearScratch_t (s : State) : (s.clearScratch).t = s.t := rfl
@[simp] theorem State.clearScratch_synthetic (s : State) : (s.clearScratch).synthetic = s.synthetic := rfl
@[simp] theorem State.clearScratch_operand (s : State) : (s.clearScratch).operand = 0 := rfl
@[simp] theorem State.clearScratch_addrLo (s : State) : (s.clearScratch).addrLo = 0 := rfl
@[simp] theorem State.clearScratch_addrHi (s : State) : (s.clearScratch).addrHi = 0 := rfl
@[simp] theorem State.clearScratch_ptrLo (s : State) : (s.clearScratch).ptrLo = 0 := rfl
@[simp] theorem State.clearScratch_ptrHi (s : State) : (s.clearScratch).ptrHi = 0 := rfl
@[simp] theorem State.clearScratch_pageCross (s : State) : (s.clearScratch).pageCross = false := rfl
@[simp] theorem State.clearScratch_vector (s : State) : (s.clearScratch).vector = 0 := rfl
@[simp] theorem State.clearScratch_nmiLine (s : State) : (s.clearScratch).nmiLine = s.nmiLine := rfl
@[simp] theorem State.clearScratch_nmiPending (s : State) : (s.clearScratch).nmiPending = s.nmiPending := rfl
@[simp] theorem State.clearScratch_irqAsserted (s : State) : (s.clearScratch).irqAsserted = s.irqAsserted := rfl
@[simp] theorem State.clearScratch_intRequested (s : State) : (s.clearScratch).intRequested = s.intRequested := rfl
@[simp] theorem State.clearScratch_bus (s : State) : (s.clearScratch).bus = s.bus := rfl

/-! ## State.poll -/

@[simp] theorem State.poll_params (s : State) : (s.poll).params = s.params := rfl
@[simp] theorem State.poll_regs (s : State) : (s.poll).regs = s.regs := rfl
@[simp] theorem State.poll_pc (s : State) : (s.poll).pc = s.pc := rfl
@[simp] theorem State.poll_opcode (s : State) : (s.poll).opcode = s.opcode := rfl
@[simp] theorem State.poll_t (s : State) : (s.poll).t = s.t := rfl
@[simp] theorem State.poll_synthetic (s : State) : (s.poll).synthetic = s.synthetic := rfl
@[simp] theorem State.poll_operand (s : State) : (s.poll).operand = s.operand := rfl
@[simp] theorem State.poll_addrLo (s : State) : (s.poll).addrLo = s.addrLo := rfl
@[simp] theorem State.poll_addrHi (s : State) : (s.poll).addrHi = s.addrHi := rfl
@[simp] theorem State.poll_ptrLo (s : State) : (s.poll).ptrLo = s.ptrLo := rfl
@[simp] theorem State.poll_ptrHi (s : State) : (s.poll).ptrHi = s.ptrHi := rfl
@[simp] theorem State.poll_pageCross (s : State) : (s.poll).pageCross = s.pageCross := rfl
@[simp] theorem State.poll_vector (s : State) : (s.poll).vector = s.vector := rfl
@[simp] theorem State.poll_nmiLine (s : State) : (s.poll).nmiLine = s.nmiLine := rfl
@[simp] theorem State.poll_nmiPending (s : State) : (s.poll).nmiPending = s.nmiPending := rfl
@[simp] theorem State.poll_irqAsserted (s : State) : (s.poll).irqAsserted = s.irqAsserted := rfl
@[simp] theorem State.poll_intRequested (s : State) : (s.poll).intRequested = (s.nmiPending || s.irqPending) := rfl
@[simp] theorem State.poll_bus (s : State) : (s.poll).bus = s.bus := rfl

/-! ## State.decS -/

@[simp] theorem State.decS_params (s : State) : (s.decS).params = s.params := rfl
@[simp] theorem State.decS_regs (s : State) : (s.decS).regs = { s.regs with s := s.regs.s - 1 } := rfl
@[simp] theorem State.decS_pc (s : State) : (s.decS).pc = s.pc := rfl
@[simp] theorem State.decS_opcode (s : State) : (s.decS).opcode = s.opcode := rfl
@[simp] theorem State.decS_t (s : State) : (s.decS).t = s.t := rfl
@[simp] theorem State.decS_synthetic (s : State) : (s.decS).synthetic = s.synthetic := rfl
@[simp] theorem State.decS_operand (s : State) : (s.decS).operand = s.operand := rfl
@[simp] theorem State.decS_addrLo (s : State) : (s.decS).addrLo = s.addrLo := rfl
@[simp] theorem State.decS_addrHi (s : State) : (s.decS).addrHi = s.addrHi := rfl
@[simp] theorem State.decS_ptrLo (s : State) : (s.decS).ptrLo = s.ptrLo := rfl
@[simp] theorem State.decS_ptrHi (s : State) : (s.decS).ptrHi = s.ptrHi := rfl
@[simp] theorem State.decS_pageCross (s : State) : (s.decS).pageCross = s.pageCross := rfl
@[simp] theorem State.decS_vector (s : State) : (s.decS).vector = s.vector := rfl
@[simp] theorem State.decS_nmiLine (s : State) : (s.decS).nmiLine = s.nmiLine := rfl
@[simp] theorem State.decS_nmiPending (s : State) : (s.decS).nmiPending = s.nmiPending := rfl
@[simp] theorem State.decS_irqAsserted (s : State) : (s.decS).irqAsserted = s.irqAsserted := rfl
@[simp] theorem State.decS_intRequested (s : State) : (s.decS).intRequested = s.intRequested := rfl
@[simp] theorem State.decS_bus (s : State) : (s.decS).bus = s.bus := rfl

/-! ## State.incS -/

@[simp] theorem State.incS_params (s : State) : (s.incS).params = s.params := rfl
@[simp] theorem State.incS_regs (s : State) : (s.incS).regs = { s.regs with s := s.regs.s + 1 } := rfl
@[simp] theorem State.incS_pc (s : State) : (s.incS).pc = s.pc := rfl
@[simp] theorem State.incS_opcode (s : State) : (s.incS).opcode = s.opcode := rfl
@[simp] theorem State.incS_t (s : State) : (s.incS).t = s.t := rfl
@[simp] theorem State.incS_synthetic (s : State) : (s.incS).synthetic = s.synthetic := rfl
@[simp] theorem State.incS_operand (s : State) : (s.incS).operand = s.operand := rfl
@[simp] theorem State.incS_addrLo (s : State) : (s.incS).addrLo = s.addrLo := rfl
@[simp] theorem State.incS_addrHi (s : State) : (s.incS).addrHi = s.addrHi := rfl
@[simp] theorem State.incS_ptrLo (s : State) : (s.incS).ptrLo = s.ptrLo := rfl
@[simp] theorem State.incS_ptrHi (s : State) : (s.incS).ptrHi = s.ptrHi := rfl
@[simp] theorem State.incS_pageCross (s : State) : (s.incS).pageCross = s.pageCross := rfl
@[simp] theorem State.incS_vector (s : State) : (s.incS).vector = s.vector := rfl
@[simp] theorem State.incS_nmiLine (s : State) : (s.incS).nmiLine = s.nmiLine := rfl
@[simp] theorem State.incS_nmiPending (s : State) : (s.incS).nmiPending = s.nmiPending := rfl
@[simp] theorem State.incS_irqAsserted (s : State) : (s.incS).irqAsserted = s.irqAsserted := rfl
@[simp] theorem State.incS_intRequested (s : State) : (s.incS).intRequested = s.intRequested := rfl
@[simp] theorem State.incS_bus (s : State) : (s.incS).bus = s.bus := rfl

/-! ## State.indexBy -/

@[simp] theorem State.indexBy_params (s : State) (ix : Regs → Byte) : (s.indexBy ix).params = s.params := rfl
@[simp] theorem State.indexBy_regs (s : State) (ix : Regs → Byte) : (s.indexBy ix).regs = s.regs := rfl
@[simp] theorem State.indexBy_pc (s : State) (ix : Regs → Byte) : (s.indexBy ix).pc = s.pc := rfl
@[simp] theorem State.indexBy_opcode (s : State) (ix : Regs → Byte) : (s.indexBy ix).opcode = s.opcode := rfl
@[simp] theorem State.indexBy_t (s : State) (ix : Regs → Byte) : (s.indexBy ix).t = s.t := rfl
@[simp] theorem State.indexBy_synthetic (s : State) (ix : Regs → Byte) : (s.indexBy ix).synthetic = s.synthetic := rfl
@[simp] theorem State.indexBy_operand (s : State) (ix : Regs → Byte) : (s.indexBy ix).operand = s.operand := rfl
@[simp] theorem State.indexBy_addrLo (s : State) (ix : Regs → Byte) : (s.indexBy ix).addrLo = indexLow s.addrLo (ix s.regs) := rfl
@[simp] theorem State.indexBy_addrHi (s : State) (ix : Regs → Byte) : (s.indexBy ix).addrHi = s.addrHi := rfl
@[simp] theorem State.indexBy_ptrLo (s : State) (ix : Regs → Byte) : (s.indexBy ix).ptrLo = s.ptrLo := rfl
@[simp] theorem State.indexBy_ptrHi (s : State) (ix : Regs → Byte) : (s.indexBy ix).ptrHi = s.ptrHi := rfl
@[simp] theorem State.indexBy_pageCross (s : State) (ix : Regs → Byte) : (s.indexBy ix).pageCross = indexCarry s.addrLo (ix s.regs) := rfl
@[simp] theorem State.indexBy_vector (s : State) (ix : Regs → Byte) : (s.indexBy ix).vector = s.vector := rfl
@[simp] theorem State.indexBy_nmiLine (s : State) (ix : Regs → Byte) : (s.indexBy ix).nmiLine = s.nmiLine := rfl
@[simp] theorem State.indexBy_nmiPending (s : State) (ix : Regs → Byte) : (s.indexBy ix).nmiPending = s.nmiPending := rfl
@[simp] theorem State.indexBy_irqAsserted (s : State) (ix : Regs → Byte) : (s.indexBy ix).irqAsserted = s.irqAsserted := rfl
@[simp] theorem State.indexBy_intRequested (s : State) (ix : Regs → Byte) : (s.indexBy ix).intRequested = s.intRequested := rfl
@[simp] theorem State.indexBy_bus (s : State) (ix : Regs → Byte) : (s.indexBy ix).bus = s.bus := rfl

/-! ## State.readOp -/

@[simp] theorem State.readOp_params (s : State) (op : ReadOp) (m : Byte) : (s.readOp op m).params = s.params := rfl
@[simp] theorem State.readOp_regs (s : State) (op : ReadOp) (m : Byte) : (s.readOp op m).regs = op s.regs m := rfl
@[simp] theorem State.readOp_pc (s : State) (op : ReadOp) (m : Byte) : (s.readOp op m).pc = s.pc := rfl
@[simp] theorem State.readOp_opcode (s : State) (op : ReadOp) (m : Byte) : (s.readOp op m).opcode = s.opcode := rfl
@[simp] theorem State.readOp_t (s : State) (op : ReadOp) (m : Byte) : (s.readOp op m).t = s.t := rfl
@[simp] theorem State.readOp_synthetic (s : State) (op : ReadOp) (m : Byte) : (s.readOp op m).synthetic = s.synthetic := rfl
@[simp] theorem State.readOp_operand (s : State) (op : ReadOp) (m : Byte) : (s.readOp op m).operand = m := rfl
@[simp] theorem State.readOp_addrLo (s : State) (op : ReadOp) (m : Byte) : (s.readOp op m).addrLo = s.addrLo := rfl
@[simp] theorem State.readOp_addrHi (s : State) (op : ReadOp) (m : Byte) : (s.readOp op m).addrHi = s.addrHi := rfl
@[simp] theorem State.readOp_ptrLo (s : State) (op : ReadOp) (m : Byte) : (s.readOp op m).ptrLo = s.ptrLo := rfl
@[simp] theorem State.readOp_ptrHi (s : State) (op : ReadOp) (m : Byte) : (s.readOp op m).ptrHi = s.ptrHi := rfl
@[simp] theorem State.readOp_pageCross (s : State) (op : ReadOp) (m : Byte) : (s.readOp op m).pageCross = s.pageCross := rfl
@[simp] theorem State.readOp_vector (s : State) (op : ReadOp) (m : Byte) : (s.readOp op m).vector = s.vector := rfl
@[simp] theorem State.readOp_nmiLine (s : State) (op : ReadOp) (m : Byte) : (s.readOp op m).nmiLine = s.nmiLine := rfl
@[simp] theorem State.readOp_nmiPending (s : State) (op : ReadOp) (m : Byte) : (s.readOp op m).nmiPending = s.nmiPending := rfl
@[simp] theorem State.readOp_irqAsserted (s : State) (op : ReadOp) (m : Byte) : (s.readOp op m).irqAsserted = s.irqAsserted := rfl
@[simp] theorem State.readOp_intRequested (s : State) (op : ReadOp) (m : Byte) : (s.readOp op m).intRequested = s.intRequested := rfl
@[simp] theorem State.readOp_bus (s : State) (op : ReadOp) (m : Byte) : (s.readOp op m).bus = s.bus := rfl

/-! ## State.setNmiLine -/

@[simp] theorem State.setNmiLine_params (s : State) (v : Bool) : (s.setNmiLine v).params = s.params := rfl
@[simp] theorem State.setNmiLine_regs (s : State) (v : Bool) : (s.setNmiLine v).regs = s.regs := rfl
@[simp] theorem State.setNmiLine_pc (s : State) (v : Bool) : (s.setNmiLine v).pc = s.pc := rfl
@[simp] theorem State.setNmiLine_opcode (s : State) (v : Bool) : (s.setNmiLine v).opcode = s.opcode := rfl
@[simp] theorem State.setNmiLine_t (s : State) (v : Bool) : (s.setNmiLine v).t = s.t := rfl
@[simp] theorem State.setNmiLine_synthetic (s : State) (v : Bool) : (s.setNmiLine v).synthetic = s.synthetic := rfl
@[simp] theorem State.setNmiLine_operand (s : State) (v : Bool) : (s.setNmiLine v).operand = s.operand := rfl
@[simp] theorem State.setNmiLine_addrLo (s : State) (v : Bool) : (s.setNmiLine v).addrLo = s.addrLo := rfl
@[simp] theorem State.setNmiLine_addrHi (s : State) (v : Bool) : (s.setNmiLine v).addrHi = s.addrHi := rfl
@[simp] theorem State.setNmiLine_ptrLo (s : State) (v : Bool) : (s.setNmiLine v).ptrLo = s.ptrLo := rfl
@[simp] theorem State.setNmiLine_ptrHi (s : State) (v : Bool) : (s.setNmiLine v).ptrHi = s.ptrHi := rfl
@[simp] theorem State.setNmiLine_pageCross (s : State) (v : Bool) : (s.setNmiLine v).pageCross = s.pageCross := rfl
@[simp] theorem State.setNmiLine_vector (s : State) (v : Bool) : (s.setNmiLine v).vector = s.vector := rfl
@[simp] theorem State.setNmiLine_nmiLine (s : State) (v : Bool) : (s.setNmiLine v).nmiLine = v := rfl
@[simp] theorem State.setNmiLine_nmiPending (s : State) (v : Bool) : (s.setNmiLine v).nmiPending = (s.nmiPending || (s.nmiLine && !v)) := rfl
@[simp] theorem State.setNmiLine_irqAsserted (s : State) (v : Bool) : (s.setNmiLine v).irqAsserted = s.irqAsserted := rfl
@[simp] theorem State.setNmiLine_intRequested (s : State) (v : Bool) : (s.setNmiLine v).intRequested = s.intRequested := rfl
@[simp] theorem State.setNmiLine_bus (s : State) (v : Bool) : (s.setNmiLine v).bus = s.bus := rfl

/-! ## State.request -/

@[simp] theorem State.request_params (s : State) (src : Nat) : (s.request src).params = s.params := rfl
@[simp] theorem State.request_regs (s : State) (src : Nat) : (s.request src).regs = s.regs := rfl
@[simp] theorem State.request_pc (s : State) (src : Nat) : (s.request src).pc = s.pc := rfl
@[simp] theorem State.request_opcode (s : State) (src : Nat) : (s.request src).opcode = s.opcode := rfl
@[simp] theorem State.request_t (s : State) (src : Nat) : (s.request src).t = s.t := rfl
@[simp] theorem State.request_synthetic (s : State) (src : Nat) : (s.request src).synthetic = s.synthetic := rfl
@[simp] theorem State.request_operand (s : State) (src : Nat) : (s.request src).operand = s.operand := rfl
@[simp] theorem State.request_addrLo (s : State) (src : Nat) : (s.request src).addrLo = s.addrLo := rfl
@[simp] theorem State.request_addrHi (s : State) (src : Nat) : (s.request src).addrHi = s.addrHi := rfl
@[simp] theorem State.request_ptrLo (s : State) (src : Nat) : (s.request src).ptrLo = s.ptrLo := rfl
@[simp] theorem State.request_ptrHi (s : State) (src : Nat) : (s.request src).ptrHi = s.ptrHi := rfl
@[simp] theorem State.request_pageCross (s : State) (src : Nat) : (s.request src).pageCross = s.pageCross := rfl
@[simp] theorem State.request_vector (s : State) (src : Nat) : (s.request src).vector = s.vector := rfl
@[simp] theorem State.request_nmiLine (s : State) (src : Nat) : (s.request src).nmiLine = s.nmiLine := rfl
@[simp] theorem State.request_nmiPending (s : State) (src : Nat) : (s.request src).nmiPending = s.nmiPending := rfl
@[simp] theorem State.request_irqAsserted (s : State) (src : Nat) : (s.request src).irqAsserted = addSource s.irqAsserted src := rfl
@[simp] theorem State.request_intRequested (s : State) (src : Nat) : (s.request src).intRequested = s.intRequested := rfl
@[simp] theorem State.request_bus (s : State) (src : Nat) : (s.request src).bus = s.bus := rfl

/-! ## State.acknowledge -/

@[simp] theorem State.acknowledge_params (s : State) (src : Nat) : (s.acknowledge src).params = s.params := rfl
@[simp] theorem State.acknowledge_regs (s : State) (src : Nat) : (s.acknowledge src).regs = s.regs := rfl
@[simp] theorem State.acknowledge_pc (s : State) (src : Nat) : (s.acknowledge src).pc = s.pc := rfl
@[simp] theorem State.acknowledge_opcode (s : State) (src : Nat) : (s.acknowledge src).opcode = s.opcode := rfl
@[simp] theorem State.acknowledge_t (s : State) (src : Nat) : (s.acknowledge src).t = s.t := rfl
@[simp] theorem State.acknowledge_synthetic (s : State) (src : Nat) : (s.acknowledge src).synthetic = s.synthetic := rfl
@[simp] theorem State.acknowledge_operand (s : State) (src : Nat) : (s.acknowledge src).operand = s.operand := rfl
@[simp] theorem State.acknowledge_addrLo (s : State) (src : Nat) : (s.acknowledge src).addrLo = s.addrLo := rfl
@[simp] theorem State.acknowledge_addrHi (s : State) (src : Nat) : (s.acknowledge src).addrHi = s.addrHi := rfl
@[simp] theorem State.acknowledge_ptrLo (s : State) (src : Nat) : (s.acknowledge src).ptrLo = s.ptrLo := rfl
@[simp] theorem State.acknowledge_ptrHi (s : State) (src : Nat) : (s.acknowledge src).ptrHi = s.ptrHi := rfl
@[simp] theorem State.acknowledge_pageCross (s : State) (src : Nat) : (s.acknowledge src).pageCross = s.pageCross := rfl
@[simp] theorem State.acknowledge_vector (s : State) (src : Nat) : (s.acknowledge src).vector = s.vector := rfl
@[simp] theorem State.acknowledge_nmiLine (s : State) (src : Nat) : (s.acknowledge src).nmiLine = s.nmiLine := rfl
@[simp] theorem State.acknowledge_nmiPending (s : State) (src : Nat) : (s.acknowledge src).nmiPending = s.nmiPending := rfl
@[simp] theorem State.acknowledge_irqAsserted (s : State) (src : Nat) : (s.acknowledge src).irqAsserted = removeSource s.irqAsserted src := rfl
@[simp] theorem State.acknowledge_intRequested (s : State) (src : Nat) : (s.acknowledge src).intRequested = s.intRequested := rfl
@[simp] theorem State.acknowledge_bus (s : State) (src : Nat) : (s.acknowledge src).bus = s.bus := rfl

/-! ## State.dmaRead -/

@[simp] theorem State.dmaRead_params (s : State) (a : Word) : (s.dmaRead a).params = s.params := rfl
@[simp] theorem State.dmaRead_regs (s : State) (a : Word) : (s.dmaRead a).regs = s.regs := rfl
@[simp] theorem State.dmaRead_pc (s : State) (a : Word) : (s.dmaRead a).pc = s.pc := rfl
@[simp] theorem State.dmaRead_opcode (s : State) (a : Word) : (s.dmaRead a).opcode = s.opcode := rfl
@[simp] theorem State.dmaRead_t (s : State) (a : Word) : (s.dmaRead a).t = s.t := rfl
@[simp] theorem State.dmaRead_synthetic (s : State) (a : Word) : (s.dmaRead a).synthetic = s.synthetic := rfl
@[simp] theorem State.dmaRead_operand (s : State) (a : Word) : (s.dmaRead a).operand = s.operand := rfl
@[simp] theorem State.dmaRead_addrLo (s : State) (a : Word) : (s.dmaRead a).addrLo = s.addrLo := rfl
@[simp] theorem State.dmaRead_addrHi (s : State) (a : Word) : (s.dmaRead a).addrHi = s.addrHi := rfl
@[simp] theorem State.dmaRead_ptrLo (s : State) (a : Word) : (s.dmaRead a).ptrLo = s.ptrLo := rfl
@[simp] theorem State.dmaRead_ptrHi (s : State) (a : Word) : (s.dmaRead a).ptrHi = s.ptrHi := rfl
@[simp] theorem State.dmaRead_pageCross (s : State) (a : Word) : (s.dmaRead a).pageCross = s.pageCross := rfl
@[simp] theorem State.dmaRead_vector (s : State) (a : Word) : (s.dmaRead a).vector = s.vector := rfl
@[simp] theorem State.dmaRead_nmiLine (s : State) (a : Word) : (s.dmaRead a).nmiLine = s.nmiLine := rfl
@[simp] theorem State.dmaRead_nmiPending (s : State) (a : Word) : (s.dmaRead a).nmiPending = s.nmiPending := rfl
@[simp] theorem State.dmaRead_irqAsserted (s : State) (a : Word) : (s.dmaRead a).irqAsserted = s.irqAsserted := rfl
@[simp] theorem State.dmaRead_intRequested (s : State) (a : Word) : (s.dmaRead a).intRequested = s.intRequested := rfl
@[simp] theorem State.dmaRead_bus (s : State) (a : Word) : (s.dmaRead a).bus = s.bus.log { cycle := 0, kind := .dmaRead, addr := a, value := s.bus.answer a } := rfl

/-! ## State.dmaWrite -/

@[simp] theorem State.dmaWrite_params (s : State) (a : Word) (v : Byte) : (s.dmaWrite a v).params = s.params := rfl
@[simp] theorem State.dmaWrite_regs (s : State) (a : Word) (v : Byte) : (s.dmaWrite a v).regs = s.regs := rfl
@[simp] theorem State.dmaWrite_pc (s : State) (a : Word) (v : Byte) : (s.dmaWrite a v).pc = s.pc := rfl
@[simp] theorem State.dmaWrite_opcode (s : State) (a : Word) (v : Byte) : (s.dmaWrite a v).opcode = s.opcode := rfl
@[simp] theorem State.dmaWrite_t (s : State) (a : Word) (v : Byte) : (s.dmaWrite a v).t = s.t := rfl
@[simp] theorem State.dmaWrite_synthetic (s : State) (a : Word) (v : Byte) : (s.dmaWrite a v).synthetic = s.synthetic := rfl
@[simp] theorem State.dmaWrite_operand (s : State) (a : Word) (v : Byte) : (s.dmaWrite a v).operand = s.operand := rfl
@[simp] theorem State.dmaWrite_addrLo (s : State) (a : Word) (v : Byte) : (s.dmaWrite a v).addrLo = s.addrLo := rfl
@[simp] theorem State.dmaWrite_addrHi (s : State) (a : Word) (v : Byte) : (s.dmaWrite a v).addrHi = s.addrHi := rfl
@[simp] theorem State.dmaWrite_ptrLo (s : State) (a : Word) (v : Byte) : (s.dmaWrite a v).ptrLo = s.ptrLo := rfl
@[simp] theorem State.dmaWrite_ptrHi (s : State) (a : Word) (v : Byte) : (s.dmaWrite a v).ptrHi = s.ptrHi := rfl
@[simp] theorem State.dmaWrite_pageCross (s : State) (a : Word) (v : Byte) : (s.dmaWrite a v).pageCross = s.pageCross := rfl
@[simp] theorem State.dmaWrite_vector (s : State) (a : Word) (v : Byte) : (s.dmaWrite a v).vector = s.vector := rfl
@[simp] theorem State.dmaWrite_nmiLine (s : State) (a : Word) (v : Byte) : (s.dmaWrite a v).nmiLine = s.nmiLine := rfl
@[simp] theorem State.dmaWrite_nmiPending (s : State) (a : Word) (v : Byte) : (s.dmaWrite a v).nmiPending = s.nmiPending := rfl
@[simp] theorem State.dmaWrite_irqAsserted (s : State) (a : Word) (v : Byte) : (s.dmaWrite a v).irqAsserted = s.irqAsserted := rfl
@[simp] theorem State.dmaWrite_intRequested (s : State) (a : Word) (v : Byte) : (s.dmaWrite a v).intRequested = s.intRequested := rfl
@[simp] theorem State.dmaWrite_bus (s : State) (a : Word) (v : Byte) : (s.dmaWrite a v).bus = { s.bus with mem := s.bus.memAfter a v }.log { cycle := 0, kind := .dmaWrite, addr := a, value := v } := rfl

/-! ## beginFetch -/

@[simp] theorem beginFetch_params (s : State) : (beginFetch s).params = s.params := rfl
@[simp] theorem beginFetch_regs (s : State) : (beginFetch s).regs = s.regs := rfl
@[simp] theorem beginFetch_pc (s : State) : (beginFetch s).pc = s.pc + 1 := rfl
@[simp] theorem beginFetch_opcode (s : State) : (beginFetch s).opcode = s.bus.answer s.pc := rfl
@[simp] theorem beginFetch_t (s : State) : (beginFetch s).t = 1 := rfl
@[simp] theorem beginFetch_synthetic (s : State) : (beginFetch s).synthetic = false := rfl
@[simp] theorem beginFetch_operand (s : State) : (beginFetch s).operand = 0 := rfl
@[simp] theorem beginFetch_addrLo (s : State) : (beginFetch s).addrLo = 0 := rfl
@[simp] theorem beginFetch_addrHi (s : State) : (beginFetch s).addrHi = 0 := rfl
@[simp] theorem beginFetch_ptrLo (s : State) : (beginFetch s).ptrLo = 0 := rfl
@[simp] theorem beginFetch_ptrHi (s : State) : (beginFetch s).ptrHi = 0 := rfl
@[simp] theorem beginFetch_pageCross (s : State) : (beginFetch s).pageCross = false := rfl
@[simp] theorem beginFetch_vector (s : State) : (beginFetch s).vector = 0 := rfl
@[simp] theorem beginFetch_nmiLine (s : State) : (beginFetch s).nmiLine = s.nmiLine := rfl
@[simp] theorem beginFetch_nmiPending (s : State) : (beginFetch s).nmiPending = s.nmiPending := rfl
@[simp] theorem beginFetch_irqAsserted (s : State) : (beginFetch s).irqAsserted = s.irqAsserted := rfl
@[simp] theorem beginFetch_intRequested (s : State) : (beginFetch s).intRequested = s.intRequested := rfl
@[simp] theorem beginFetch_bus (s : State) : (beginFetch s).bus = s.bus.read 1 s.pc := rfl

/-! ## beginEntry -/

@[simp] theorem beginEntry_params (s : State) : (beginEntry s).params = s.params := rfl
@[simp] theorem beginEntry_regs (s : State) : (beginEntry s).regs = s.regs := rfl
@[simp] theorem beginEntry_pc (s : State) : (beginEntry s).pc = s.pc := rfl
@[simp] theorem beginEntry_opcode (s : State) : (beginEntry s).opcode = 0x00 := rfl
@[simp] theorem beginEntry_t (s : State) : (beginEntry s).t = 1 := rfl
@[simp] theorem beginEntry_synthetic (s : State) : (beginEntry s).synthetic = true := rfl
@[simp] theorem beginEntry_operand (s : State) : (beginEntry s).operand = 0 := rfl
@[simp] theorem beginEntry_addrLo (s : State) : (beginEntry s).addrLo = 0 := rfl
@[simp] theorem beginEntry_addrHi (s : State) : (beginEntry s).addrHi = 0 := rfl
@[simp] theorem beginEntry_ptrLo (s : State) : (beginEntry s).ptrLo = 0 := rfl
@[simp] theorem beginEntry_ptrHi (s : State) : (beginEntry s).ptrHi = 0 := rfl
@[simp] theorem beginEntry_pageCross (s : State) : (beginEntry s).pageCross = false := rfl
@[simp] theorem beginEntry_vector (s : State) : (beginEntry s).vector = 0 := rfl
@[simp] theorem beginEntry_nmiLine (s : State) : (beginEntry s).nmiLine = s.nmiLine := rfl
@[simp] theorem beginEntry_nmiPending (s : State) : (beginEntry s).nmiPending = s.nmiPending := rfl
@[simp] theorem beginEntry_irqAsserted (s : State) : (beginEntry s).irqAsserted = s.irqAsserted := rfl
@[simp] theorem beginEntry_intRequested (s : State) : (beginEntry s).intRequested = false := rfl
@[simp] theorem beginEntry_bus (s : State) : (beginEntry s).bus = s.bus.read 1 s.pc := rfl

/-! ## State.resetEntry -/

@[simp] theorem State.resetEntry_params (s : State) : s.resetEntry.params = s.params := rfl
@[simp] theorem State.resetEntry_regs (s : State) : s.resetEntry.regs = { s.regs with s := 0xFD, i := true } := rfl
@[simp] theorem State.resetEntry_pc (s : State) : s.resetEntry.pc = mkWord ((s.bus.read 0 resetVector).answer (resetVector + 1)) (s.bus.answer resetVector) := rfl
@[simp] theorem State.resetEntry_opcode (s : State) : s.resetEntry.opcode = 0 := rfl
@[simp] theorem State.resetEntry_t (s : State) : s.resetEntry.t = 0 := rfl
@[simp] theorem State.resetEntry_synthetic (s : State) : s.resetEntry.synthetic = false := rfl
@[simp] theorem State.resetEntry_operand (s : State) : s.resetEntry.operand = 0 := rfl
@[simp] theorem State.resetEntry_addrLo (s : State) : s.resetEntry.addrLo = 0 := rfl
@[simp] theorem State.resetEntry_addrHi (s : State) : s.resetEntry.addrHi = 0 := rfl
@[simp] theorem State.resetEntry_ptrLo (s : State) : s.resetEntry.ptrLo = 0 := rfl
@[simp] theorem State.resetEntry_ptrHi (s : State) : s.resetEntry.ptrHi = 0 := rfl
@[simp] theorem State.resetEntry_pageCross (s : State) : s.resetEntry.pageCross = false := rfl
@[simp] theorem State.resetEntry_vector (s : State) : s.resetEntry.vector = 0 := rfl
@[simp] theorem State.resetEntry_nmiLine (s : State) : s.resetEntry.nmiLine = s.nmiLine := rfl
@[simp] theorem State.resetEntry_nmiPending (s : State) : s.resetEntry.nmiPending = false := rfl
@[simp] theorem State.resetEntry_irqAsserted (s : State) : s.resetEntry.irqAsserted = s.irqAsserted := rfl
@[simp] theorem State.resetEntry_intRequested (s : State) : s.resetEntry.intRequested = false := rfl
@[simp] theorem State.resetEntry_bus (s : State) : s.resetEntry.bus = (s.bus.read 0 resetVector).read 0 (resetVector + 1) := rfl

/-! ## State.selectVector -/

@[simp] theorem State.selectVector_params (s : State) : s.selectVector.params = s.params := by
  cases h : s.nmiPending <;> simp [State.selectVector, h]
@[simp] theorem State.selectVector_regs (s : State) : s.selectVector.regs = s.regs := by
  cases h : s.nmiPending <;> simp [State.selectVector, h]
@[simp] theorem State.selectVector_pc (s : State) : s.selectVector.pc = s.pc := by
  cases h : s.nmiPending <;> simp [State.selectVector, h]
@[simp] theorem State.selectVector_opcode (s : State) : s.selectVector.opcode = s.opcode := by
  cases h : s.nmiPending <;> simp [State.selectVector, h]
@[simp] theorem State.selectVector_t (s : State) : s.selectVector.t = s.t := by
  cases h : s.nmiPending <;> simp [State.selectVector, h]
@[simp] theorem State.selectVector_synthetic (s : State) : s.selectVector.synthetic = s.synthetic := by
  cases h : s.nmiPending <;> simp [State.selectVector, h]
@[simp] theorem State.selectVector_operand (s : State) : s.selectVector.operand = s.operand := by
  cases h : s.nmiPending <;> simp [State.selectVector, h]
@[simp] theorem State.selectVector_addrLo (s : State) : s.selectVector.addrLo = s.addrLo := by
  cases h : s.nmiPending <;> simp [State.selectVector, h]
@[simp] theorem State.selectVector_addrHi (s : State) : s.selectVector.addrHi = s.addrHi := by
  cases h : s.nmiPending <;> simp [State.selectVector, h]
@[simp] theorem State.selectVector_ptrLo (s : State) : s.selectVector.ptrLo = s.ptrLo := by
  cases h : s.nmiPending <;> simp [State.selectVector, h]
@[simp] theorem State.selectVector_ptrHi (s : State) : s.selectVector.ptrHi = s.ptrHi := by
  cases h : s.nmiPending <;> simp [State.selectVector, h]
@[simp] theorem State.selectVector_pageCross (s : State) : s.selectVector.pageCross = s.pageCross := by
  cases h : s.nmiPending <;> simp [State.selectVector, h]
@[simp] theorem State.selectVector_vector (s : State) : s.selectVector.vector = if s.nmiPending then nmiVector else irqVector := by
  cases h : s.nmiPending <;> simp [State.selectVector, h]
@[simp] theorem State.selectVector_nmiLine (s : State) : s.selectVector.nmiLine = s.nmiLine := by
  cases h : s.nmiPending <;> simp [State.selectVector, h]
@[simp] theorem State.selectVector_nmiPending (s : State) : s.selectVector.nmiPending = false := by
  cases h : s.nmiPending <;> simp [State.selectVector, h]
@[simp] theorem State.selectVector_irqAsserted (s : State) : s.selectVector.irqAsserted = s.irqAsserted := by
  cases h : s.nmiPending <;> simp [State.selectVector, h]
@[simp] theorem State.selectVector_intRequested (s : State) : s.selectVector.intRequested = s.intRequested := by
  cases h : s.nmiPending <;> simp [State.selectVector, h]
@[simp] theorem State.selectVector_bus (s : State) : s.selectVector.bus = s.bus := by
  cases h : s.nmiPending <;> simp [State.selectVector, h]

/-! ## State.fixHigh -/

@[simp] theorem State.fixHigh_params (s : State) : s.fixHigh.params = s.params := by
  cases h : s.pageCross <;> simp [State.fixHigh, h]
@[simp] theorem State.fixHigh_regs (s : State) : s.fixHigh.regs = s.regs := by
  cases h : s.pageCross <;> simp [State.fixHigh, h]
@[simp] theorem State.fixHigh_pc (s : State) : s.fixHigh.pc = s.pc := by
  cases h : s.pageCross <;> simp [State.fixHigh, h]
@[simp] theorem State.fixHigh_opcode (s : State) : s.fixHigh.opcode = s.opcode := by
  cases h : s.pageCross <;> simp [State.fixHigh, h]
@[simp] theorem State.fixHigh_t (s : State) : s.fixHigh.t = s.t := by
  cases h : s.pageCross <;> simp [State.fixHigh, h]
@[simp] theorem State.fixHigh_synthetic (s : State) : s.fixHigh.synthetic = s.synthetic := by
  cases h : s.pageCross <;> simp [State.fixHigh, h]
@[simp] theorem State.fixHigh_operand (s : State) : s.fixHigh.operand = s.operand := by
  cases h : s.pageCross <;> simp [State.fixHigh, h]
@[simp] theorem State.fixHigh_addrLo (s : State) : s.fixHigh.addrLo = s.addrLo := by
  cases h : s.pageCross <;> simp [State.fixHigh, h]
@[simp] theorem State.fixHigh_addrHi (s : State) : s.fixHigh.addrHi = if s.pageCross then s.addrHi + 1 else s.addrHi := by
  cases h : s.pageCross <;> simp [State.fixHigh, h]
@[simp] theorem State.fixHigh_ptrLo (s : State) : s.fixHigh.ptrLo = s.ptrLo := by
  cases h : s.pageCross <;> simp [State.fixHigh, h]
@[simp] theorem State.fixHigh_ptrHi (s : State) : s.fixHigh.ptrHi = s.ptrHi := by
  cases h : s.pageCross <;> simp [State.fixHigh, h]
@[simp] theorem State.fixHigh_pageCross (s : State) : s.fixHigh.pageCross = s.pageCross := by
  cases h : s.pageCross <;> simp [State.fixHigh, h]
@[simp] theorem State.fixHigh_vector (s : State) : s.fixHigh.vector = s.vector := by
  cases h : s.pageCross <;> simp [State.fixHigh, h]
@[simp] theorem State.fixHigh_nmiLine (s : State) : s.fixHigh.nmiLine = s.nmiLine := by
  cases h : s.pageCross <;> simp [State.fixHigh, h]
@[simp] theorem State.fixHigh_nmiPending (s : State) : s.fixHigh.nmiPending = s.nmiPending := by
  cases h : s.pageCross <;> simp [State.fixHigh, h]
@[simp] theorem State.fixHigh_irqAsserted (s : State) : s.fixHigh.irqAsserted = s.irqAsserted := by
  cases h : s.pageCross <;> simp [State.fixHigh, h]
@[simp] theorem State.fixHigh_intRequested (s : State) : s.fixHigh.intRequested = s.intRequested := by
  cases h : s.pageCross <;> simp [State.fixHigh, h]
@[simp] theorem State.fixHigh_bus (s : State) : s.fixHigh.bus = s.bus := by
  cases h : s.pageCross <;> simp [State.fixHigh, h]

end Sys2Proof.Machine
end

