-- ==== Sys2Proof/Laws/Templates.lean ====
section
/-! SUPPORT. One lemma per cycle template: begun between instructions on any bus, where it ends, in the bytes the bus
answered (40_sequencer R74 to R103). -/

namespace Sys2Proof.Machine

open Sys2Proof

/-- A sequence begun between instructions starts with the opcode fetch (R66). -/
theorem run_of_boundary (T : Template) (s : State) (h : s.t = 0) : run T s = finish T 8 (beginFetch s) := by
  rw [run, if_pos h]

/-- `x - 1 - 1` on a byte. -/
theorem byte_sub_one_sub_one (x : Byte) : x - 1#8 - 1#8 = x - 2#8 := by bv_omega

/-- `w + 1 + 1` on a word. -/
theorem word_succ' (w : Word) : w + 1#16 + 1#16 = w + 2#16 := by bv_omega

/-- `x - 2 - 1` on a byte. -/
theorem byte_sub_two_sub_one (x : Byte) : x - 2#8 - 1#8 = x - 3#8 := by bv_omega

/-- T_IMP (R74). -/
theorem run_tImp (op : ImpOp) (s : State) (h : s.t = 0) :
    ∃ t, run (tImp op) s = .next t ∧ Settled s t (op s.regs) (s.pc + 1) s.pollAnswer ∧ t.nmiPending = s.nmiPending ∧
      t.bus = s.bus.after 1 [.read s.pc, .read (s.pc + 1)] := by
  rw [run_of_boundary _ _ h]
  simp [tImp, finish, cycle, beginFetch, Descr.run, LastMark.holds, PollRule.polls, FetchMark.holds,
    State.pollAnswer, State.irqPending]
  exact ⟨rfl, rfl, rfl, rfl, rfl, rfl, rfl, rfl⟩

/-- T_IMM (R75). -/
theorem run_tImm (op : Config.Params → ReadOp) (s : State) (h : s.t = 0) {m : Byte}
    (h_m : (s.bus.after 1 [.read s.pc]).answer (s.pc + 1) = m) :
    ∃ t, run (tImm op) s = .next t ∧ Settled s t (op s.params s.regs m) (s.pc + 2) s.pollAnswer ∧
      t.nmiPending = s.nmiPending ∧
      t.bus = s.bus.after 1 [.read s.pc, .read (s.pc + 1)] := by
  subst h_m
  rw [run_of_boundary _ _ h]
  simp [tImm, finish, cycle, beginFetch, Descr.run, LastMark.holds, PollRule.polls, FetchMark.holds,
    State.pollAnswer, State.irqPending, BitVec.add_assoc]
  exact ⟨rfl, rfl, rfl, rfl, rfl, rfl, rfl, rfl⟩

/-- T_ZP_R (R76). -/
theorem run_tZpR (op : ReadOp) (s : State) (h : s.t = 0) {b m : Byte}
    (h_b : (s.bus.after 1 [.read s.pc]).answer (s.pc + 1) = b)
    (h_m : (s.bus.after 1 [.read s.pc, .read (s.pc + 1)]).answer (zeroPage b) = m) :
    ∃ t, run (tZpR op) s = .next t ∧ Settled s t (op s.regs m) (s.pc + 2) s.pollAnswer ∧ t.nmiPending = s.nmiPending ∧
      t.bus = s.bus.after 1 [.read s.pc, .read (s.pc + 1), .read (zeroPage b)] := by
  subst h_b h_m
  rw [run_of_boundary _ _ h]
  simp [tZpR, finish, cycle, beginFetch, Descr.run, LastMark.holds, PollRule.polls, FetchMark.holds, fetchTo,
    fetchLo, readReady, State.pollAnswer, State.irqPending, State.zpAddr, BitVec.add_assoc]
  exact ⟨rfl, rfl, rfl, rfl, rfl, rfl, rfl, rfl⟩

/-- T_ZP_W (R77). -/
theorem run_tZpW (op : WriteOp) (s : State) (h : s.t = 0) {b : Byte}
    (h_b : (s.bus.after 1 [.read s.pc]).answer (s.pc + 1) = b) :
    ∃ t, run (tZpW op) s = .next t ∧ Settled s t s.regs (s.pc + 2) s.pollAnswer ∧ t.nmiPending = s.nmiPending ∧
      t.bus = s.bus.after 1 [.read s.pc, .read (s.pc + 1), .write (zeroPage b) (op s.regs)] := by
  subst h_b
  rw [run_of_boundary _ _ h]
  simp [tZpW, finish, cycle, beginFetch, Descr.run, LastMark.holds, PollRule.polls, FetchMark.holds, fetchTo,
    fetchLo, writeReady, State.pollAnswer, State.irqPending, State.zpAddr, BitVec.add_assoc]
  exact ⟨rfl, rfl, rfl, rfl, rfl, rfl, rfl, rfl⟩

/-- T_ZP_M (R78). The poll comes after the operation. -/
theorem run_tZpM (op : RmwOp) (s : State) (h : s.t = 0) {b m : Byte}
    (h_b : (s.bus.after 1 [.read s.pc]).answer (s.pc + 1) = b)
    (h_m : (s.bus.after 1 [.read s.pc, .read (s.pc + 1)]).answer (zeroPage b) = m) :
    ∃ t, run (tZpM op) s = .next t ∧
      Settled s t (op s.regs m).1 (s.pc + 2) (State.pollAnswer { s with regs := (op s.regs m).1 }) ∧
      t.nmiPending = s.nmiPending ∧
      t.bus = s.bus.after 1 [.read s.pc, .read (s.pc + 1), .read (zeroPage b), .write (zeroPage b) m, .write
        (zeroPage b) (op s.regs m).2] := by
  subst h_b h_m
  rw [run_of_boundary _ _ h]
  simp [tZpM, finish, cycle, beginFetch, Descr.run, LastMark.holds, PollRule.polls, FetchMark.holds, fetchTo,
    fetchLo, readAt, rmwCycles, State.pollAnswer, State.irqPending, State.zpAddr, BitVec.add_assoc]
  exact ⟨rfl, rfl, rfl, rfl, rfl, rfl, rfl, rfl⟩

/-- T_ZPI_R (R79). -/
theorem run_tZpiR (ix : Regs → Byte) (op : ReadOp) (s : State) (h : s.t = 0) {b m : Byte}
    (h_b : (s.bus.after 1 [.read s.pc]).answer (s.pc + 1) = b)
    (h_m : (s.bus.after 1 [.read s.pc, .read (s.pc + 1), .read (zeroPage b)]).answer (zeroPage (b + ix s.regs)) = m) :
    ∃ t, run (tZpiR ix op) s = .next t ∧ Settled s t (op s.regs m) (s.pc + 2) s.pollAnswer ∧
      t.nmiPending = s.nmiPending ∧
      t.bus = s.bus.after 1 [.read s.pc, .read (s.pc + 1), .read (zeroPage b), .read (zeroPage (b + ix s.regs))] := by
  subst h_b h_m
  rw [run_of_boundary _ _ h]
  simp [tZpiR, finish, cycle, beginFetch, Descr.run, LastMark.holds, PollRule.polls, FetchMark.holds, fetchTo,
    fetchLo, indexZeroPage, dummyAt, readReady, State.pollAnswer, State.irqPending, State.zpAddr, BitVec.add_assoc]
  exact ⟨rfl, rfl, rfl, rfl, rfl, rfl, rfl, rfl⟩

/-- T_ZPI_W (R80). -/
theorem run_tZpiW (ix : Regs → Byte) (op : WriteOp) (s : State) (h : s.t = 0) {b : Byte}
    (h_b : (s.bus.after 1 [.read s.pc]).answer (s.pc + 1) = b) :
    ∃ t, run (tZpiW ix op) s = .next t ∧ Settled s t s.regs (s.pc + 2) s.pollAnswer ∧ t.nmiPending = s.nmiPending ∧
      t.bus = s.bus.after 1 [.read s.pc, .read (s.pc + 1), .read (zeroPage b), .write (zeroPage (b + ix s.regs)) (op
        s.regs)] := by
  subst h_b
  rw [run_of_boundary _ _ h]
  simp [tZpiW, finish, cycle, beginFetch, Descr.run, LastMark.holds, PollRule.polls, FetchMark.holds, fetchTo,
    fetchLo, indexZeroPage, dummyAt, writeReady, State.pollAnswer, State.irqPending, State.zpAddr, BitVec.add_assoc]
  exact ⟨rfl, rfl, rfl, rfl, rfl, rfl, rfl, rfl⟩

/-- T_ZPI_M (R81). The poll comes after the operation. -/
theorem run_tZpiM (ix : Regs → Byte) (op : RmwOp) (s : State) (h : s.t = 0) {b m : Byte}
    (h_b : (s.bus.after 1 [.read s.pc]).answer (s.pc + 1) = b)
    (h_m : (s.bus.after 1 [.read s.pc, .read (s.pc + 1), .read (zeroPage b)]).answer (zeroPage (b + ix s.regs)) = m) :
    ∃ t, run (tZpiM ix op) s = .next t ∧
      Settled s t (op s.regs m).1 (s.pc + 2) (State.pollAnswer { s with regs := (op s.regs m).1 }) ∧
      t.nmiPending = s.nmiPending ∧
      t.bus = s.bus.after 1 [.read s.pc, .read (s.pc + 1), .read (zeroPage b), .read (zeroPage (b + ix s.regs)),
        .write (zeroPage (b + ix s.regs)) m, .write (zeroPage (b + ix s.regs)) (op s.regs m).2] := by
  subst h_b h_m
  rw [run_of_boundary _ _ h]
  simp [tZpiM, finish, cycle, beginFetch, Descr.run, LastMark.holds, PollRule.polls, FetchMark.holds, fetchTo,
    fetchLo, indexZeroPage, dummyAt, readAt, rmwCycles, State.pollAnswer, State.irqPending, State.zpAddr,
    BitVec.add_assoc]
  exact ⟨rfl, rfl, rfl, rfl, rfl, rfl, rfl, rfl⟩

/-- T_ABS_R (R82). -/
theorem run_tAbsR (op : ReadOp) (s : State) (h : s.t = 0) {lo hi m : Byte}
    (h_lo : (s.bus.after 1 [.read s.pc]).answer (s.pc + 1) = lo)
    (h_hi : (s.bus.after 1 [.read s.pc, .read (s.pc + 1)]).answer (s.pc + 2) = hi)
    (h_m : (s.bus.after 1 [.read s.pc, .read (s.pc + 1), .read (s.pc + 2)]).answer (mkWord hi lo) = m) :
    ∃ t, run (tAbsR op) s = .next t ∧ Settled s t (op s.regs m) (s.pc + 3) s.pollAnswer ∧
      t.nmiPending = s.nmiPending ∧
      t.bus = s.bus.after 1 [.read s.pc, .read (s.pc + 1), .read (s.pc + 2), .read (mkWord hi lo)] := by
  subst h_lo h_hi h_m
  rw [run_of_boundary _ _ h]
  simp [tAbsR, finish, cycle, beginFetch, Descr.run, LastMark.holds, PollRule.polls, FetchMark.holds, fetchTo,
    fetchLo, fetchHi, readReady, State.pollAnswer, State.irqPending, State.ea, BitVec.add_assoc]
  exact ⟨rfl, rfl, rfl, rfl, rfl, rfl, rfl, rfl⟩

/-- T_ABS_W (R83). -/
theorem run_tAbsW (op : WriteOp) (s : State) (h : s.t = 0) {lo hi : Byte}
    (h_lo : (s.bus.after 1 [.read s.pc]).answer (s.pc + 1) = lo)
    (h_hi : (s.bus.after 1 [.read s.pc, .read (s.pc + 1)]).answer (s.pc + 2) = hi) :
    ∃ t, run (tAbsW op) s = .next t ∧ Settled s t s.regs (s.pc + 3) s.pollAnswer ∧ t.nmiPending = s.nmiPending ∧
      t.bus = s.bus.after 1 [.read s.pc, .read (s.pc + 1), .read (s.pc + 2), .write (mkWord hi lo) (op s.regs)] := by
  subst h_lo h_hi
  rw [run_of_boundary _ _ h]
  simp [tAbsW, finish, cycle, beginFetch, Descr.run, LastMark.holds, PollRule.polls, FetchMark.holds, fetchTo,
    fetchLo, fetchHi, writeReady, State.pollAnswer, State.irqPending, State.ea, BitVec.add_assoc]
  exact ⟨rfl, rfl, rfl, rfl, rfl, rfl, rfl, rfl⟩

/-- T_ABS_M (R84). The poll comes after the operation. -/
theorem run_tAbsM (op : RmwOp) (s : State) (h : s.t = 0) {lo hi m : Byte}
    (h_lo : (s.bus.after 1 [.read s.pc]).answer (s.pc + 1) = lo)
    (h_hi : (s.bus.after 1 [.read s.pc, .read (s.pc + 1)]).answer (s.pc + 2) = hi)
    (h_m : (s.bus.after 1 [.read s.pc, .read (s.pc + 1), .read (s.pc + 2)]).answer (mkWord hi lo) = m) :
    ∃ t, run (tAbsM op) s = .next t ∧
      Settled s t (op s.regs m).1 (s.pc + 3) (State.pollAnswer { s with regs := (op s.regs m).1 }) ∧
      t.nmiPending = s.nmiPending ∧
      t.bus = s.bus.after 1 [.read s.pc, .read (s.pc + 1), .read (s.pc + 2), .read (mkWord hi lo), .write (mkWord hi
        lo) m, .write (mkWord hi lo) (op s.regs m).2] := by
  subst h_lo h_hi h_m
  rw [run_of_boundary _ _ h]
  simp [tAbsM, finish, cycle, beginFetch, Descr.run, LastMark.holds, PollRule.polls, FetchMark.holds, fetchTo,
    fetchLo, fetchHi, readAt, rmwCycles, State.pollAnswer, State.irqPending, State.ea, BitVec.add_assoc]
  exact ⟨rfl, rfl, rfl, rfl, rfl, rfl, rfl, rfl⟩

/-- T_IZX_R (R88). -/
theorem run_tIzxR (op : ReadOp) (s : State) (h : s.t = 0) {b lo hi m : Byte}
    (h_b : (s.bus.after 1 [.read s.pc]).answer (s.pc + 1) = b)
    (h_lo : (s.bus.after 1 [.read s.pc, .read (s.pc + 1), .read (zeroPage b)]).answer (zeroPage (b + s.regs.x)) = lo)
    (h_hi : (s.bus.after 1 [.read s.pc, .read (s.pc + 1), .read (zeroPage b), .read (zeroPage (b +
      s.regs.x))]).answer (zeroPage (b + s.regs.x + 1)) = hi)
    (h_m : (s.bus.after 1 [.read s.pc, .read (s.pc + 1), .read (zeroPage b), .read (zeroPage (b + s.regs.x)), .read
      (zeroPage (b + s.regs.x + 1))]).answer (mkWord hi lo) = m) :
    ∃ t, run (tIzxR op) s = .next t ∧ Settled s t (op s.regs m) (s.pc + 2) s.pollAnswer ∧
      t.nmiPending = s.nmiPending ∧
      t.bus = s.bus.after 1 [.read s.pc, .read (s.pc + 1), .read (zeroPage b), .read (zeroPage (b + s.regs.x)), .read
        (zeroPage (b + s.regs.x + 1)), .read (mkWord hi lo)] := by
  subst h_b h_lo h_hi h_m
  rw [run_of_boundary _ _ h]
  simp [tIzxR, finish, cycle, beginFetch, Descr.run, LastMark.holds, PollRule.polls, FetchMark.holds, fetchTo,
    fetchPtr, indexPtr, ptrReadLo, ptrReadHi, dummyAt, readAt, readReady, State.pollAnswer, State.irqPending,
    State.ea, BitVec.add_assoc]
  exact ⟨rfl, rfl, rfl, rfl, rfl, rfl, rfl, rfl⟩

/-- T_IZX_W (R89). -/
theorem run_tIzxW (op : WriteOp) (s : State) (h : s.t = 0) {b lo hi : Byte}
    (h_b : (s.bus.after 1 [.read s.pc]).answer (s.pc + 1) = b)
    (h_lo : (s.bus.after 1 [.read s.pc, .read (s.pc + 1), .read (zeroPage b)]).answer (zeroPage (b + s.regs.x)) = lo)
    (h_hi : (s.bus.after 1 [.read s.pc, .read (s.pc + 1), .read (zeroPage b), .read (zeroPage (b +
      s.regs.x))]).answer (zeroPage (b + s.regs.x + 1)) = hi) :
    ∃ t, run (tIzxW op) s = .next t ∧ Settled s t s.regs (s.pc + 2) s.pollAnswer ∧ t.nmiPending = s.nmiPending ∧
      t.bus = s.bus.after 1 [.read s.pc, .read (s.pc + 1), .read (zeroPage b), .read (zeroPage (b + s.regs.x)), .read
        (zeroPage (b + s.regs.x + 1)), .write (mkWord hi lo) (op s.regs)] := by
  subst h_b h_lo h_hi
  rw [run_of_boundary _ _ h]
  simp [tIzxW, finish, cycle, beginFetch, Descr.run, LastMark.holds, PollRule.polls, FetchMark.holds, fetchTo,
    fetchPtr, indexPtr, ptrReadLo, ptrReadHi, dummyAt, readAt, writeReady, State.pollAnswer, State.irqPending,
    State.ea, BitVec.add_assoc]
  exact ⟨rfl, rfl, rfl, rfl, rfl, rfl, rfl, rfl⟩

/-- T_IZX_M (R90). The poll comes after the operation. -/
theorem run_tIzxM (op : RmwOp) (s : State) (h : s.t = 0) {b lo hi m : Byte}
    (h_b : (s.bus.after 1 [.read s.pc]).answer (s.pc + 1) = b)
    (h_lo : (s.bus.after 1 [.read s.pc, .read (s.pc + 1), .read (zeroPage b)]).answer (zeroPage (b + s.regs.x)) = lo)
    (h_hi : (s.bus.after 1 [.read s.pc, .read (s.pc + 1), .read (zeroPage b), .read (zeroPage (b +
      s.regs.x))]).answer (zeroPage (b + s.regs.x + 1)) = hi)
    (h_m : (s.bus.after 1 [.read s.pc, .read (s.pc + 1), .read (zeroPage b), .read (zeroPage (b + s.regs.x)), .read
      (zeroPage (b + s.regs.x + 1))]).answer (mkWord hi lo) = m) :
    ∃ t, run (tIzxM op) s = .next t ∧
      Settled s t (op s.regs m).1 (s.pc + 2) (State.pollAnswer { s with regs := (op s.regs m).1 }) ∧
      t.nmiPending = s.nmiPending ∧
      t.bus = s.bus.after 1 [.read s.pc, .read (s.pc + 1), .read (zeroPage b), .read (zeroPage (b + s.regs.x)), .read
        (zeroPage (b + s.regs.x + 1)), .read (mkWord hi lo), .write (mkWord hi lo) m, .write (mkWord hi lo) (op
        s.regs m).2] := by
  subst h_b h_lo h_hi h_m
  rw [run_of_boundary _ _ h]
  simp [tIzxM, finish, cycle, beginFetch, Descr.run, LastMark.holds, PollRule.polls, FetchMark.holds, fetchTo,
    fetchPtr, indexPtr, ptrReadLo, ptrReadHi, dummyAt, readAt, rmwCycles, State.pollAnswer, State.irqPending,
    State.ea, BitVec.add_assoc]
  exact ⟨rfl, rfl, rfl, rfl, rfl, rfl, rfl, rfl⟩

/-- T_ABI_R (R85), no page crossed. -/
theorem run_tAbiR_same (ix : Regs → Byte) (op : ReadOp) (s : State) (h : s.t = 0) {lo hi m : Byte} (hx : indexCarry
  lo (ix s.regs) = false)
    (h_lo : (s.bus.after 1 [.read s.pc]).answer (s.pc + 1) = lo)
    (h_hi : (s.bus.after 1 [.read s.pc, .read (s.pc + 1)]).answer (s.pc + 2) = hi)
    (h_m : (s.bus.after 1 [.read s.pc, .read (s.pc + 1), .read (s.pc + 2)]).answer (mkWord hi (indexLow lo (ix
      s.regs))) = m) :
    ∃ t, run (tAbiR ix op) s = .next t ∧ Settled s t (op s.regs m) (s.pc + 3) s.pollAnswer ∧
      t.nmiPending = s.nmiPending ∧
      t.bus = s.bus.after 1 [.read s.pc, .read (s.pc + 1), .read (s.pc + 2), .read (mkWord hi (indexLow lo (ix
        s.regs)))] := by
  subst h_lo h_hi h_m
  rw [run_of_boundary _ _ h]
  simp only [Bus.after_read, Bus.after_nil, BitVec.ofNat_eq_ofNat] at hx
  simp [tAbiR, hx, finish, cycle, beginFetch, Descr.run, LastMark.holds, PollRule.polls, FetchMark.holds, fetchTo,
    fetchLo, fetchHiIndexed, readReady, readUnlessCross, State.pollAnswer, State.irqPending, State.ea,
    BitVec.add_assoc]
  exact ⟨rfl, rfl, rfl, rfl, rfl, rfl, rfl, rfl⟩

/-- T_ABI_R (R85), a page crossed. -/
theorem run_tAbiR_cross (ix : Regs → Byte) (op : ReadOp) (s : State) (h : s.t = 0) {lo hi m : Byte} (hx : indexCarry
  lo (ix s.regs) = true)
    (h_lo : (s.bus.after 1 [.read s.pc]).answer (s.pc + 1) = lo)
    (h_hi : (s.bus.after 1 [.read s.pc, .read (s.pc + 1)]).answer (s.pc + 2) = hi)
    (h_m : (s.bus.after 1 [.read s.pc, .read (s.pc + 1), .read (s.pc + 2), .read (mkWord hi (indexLow lo (ix
      s.regs)))]).answer (mkWord (hi + 1) (indexLow lo (ix s.regs))) = m) :
    ∃ t, run (tAbiR ix op) s = .next t ∧ Settled s t (op s.regs m) (s.pc + 3) s.pollAnswer ∧
      t.nmiPending = s.nmiPending ∧
      t.bus = s.bus.after 1 [.read s.pc, .read (s.pc + 1), .read (s.pc + 2), .read (mkWord hi (indexLow lo (ix
        s.regs))), .read (mkWord (hi + 1) (indexLow lo (ix s.regs)))] := by
  subst h_lo h_hi h_m
  rw [run_of_boundary _ _ h]
  simp only [Bus.after_read, Bus.after_nil, BitVec.ofNat_eq_ofNat] at hx
  simp [tAbiR, hx, finish, cycle, beginFetch, Descr.run, LastMark.holds, PollRule.polls, FetchMark.holds, fetchTo,
    fetchLo, fetchHiIndexed, readReady, readUnlessCross, State.pollAnswer, State.irqPending, State.ea,
    BitVec.add_assoc]
  exact ⟨rfl, rfl, rfl, rfl, rfl, rfl, rfl, rfl⟩

/-- T_ABI_W (R86) with an ordinary store. -/
theorem run_tAbiW (ix : Regs → Byte) (op : WriteOp) (s : State) (h : s.t = 0) {lo hi : Byte}
    (h_lo : (s.bus.after 1 [.read s.pc]).answer (s.pc + 1) = lo)
    (h_hi : (s.bus.after 1 [.read s.pc, .read (s.pc + 1)]).answer (s.pc + 2) = hi) :
    ∃ t, run (tAbiW ix (writeReady State.ea op)) s = .next t ∧ Settled s t s.regs (s.pc + 3) s.pollAnswer ∧
      t.nmiPending = s.nmiPending ∧
      t.bus = s.bus.after 1 [.read s.pc, .read (s.pc + 1), .read (s.pc + 2), .read (mkWord hi (indexLow lo (ix
        s.regs))), .write (mkWord (if indexCarry lo (ix s.regs) then hi + 1 else hi) (indexLow lo (ix s.regs))) (op
        s.regs)] := by
  rw [run_of_boundary _ _ h]
  cases hx : indexCarry lo (ix s.regs)
  all_goals
    subst_vars
    simp only [Bus.after_read, Bus.after_nil, BitVec.ofNat_eq_ofNat] at hx
    simp [tAbiW, hx, finish, cycle, beginFetch, Descr.run, LastMark.holds, PollRule.polls, FetchMark.holds, fetchTo,
      fetchLo, fetchHiIndexed, dummyAt, writeReady, fixCycle, State.pollAnswer, State.irqPending, State.ea,
      BitVec.add_assoc]
    exact ⟨rfl, rfl, rfl, rfl, rfl, rfl, rfl, rfl⟩

/-- T_ABI_W (R86) with an unstable store (47_unofficial R183). -/
theorem run_tAbiW_unstable (ix : Regs → Byte) (op : WriteOp) (before : ImpOp) (s : State) (h : s.t = 0) {lo hi :
  Byte}
    (h_lo : (s.bus.after 1 [.read s.pc]).answer (s.pc + 1) = lo)
    (h_hi : (s.bus.after 1 [.read s.pc, .read (s.pc + 1)]).answer (s.pc + 2) = hi) :
    ∃ t, run (tAbiW ix (unstableStore op before)) s = .next t ∧ Settled s t (before s.regs) (s.pc + 3) s.pollAnswer ∧
      t.nmiPending = s.nmiPending ∧
      t.bus = s.bus.after 1 [.read s.pc, .read (s.pc + 1), .read (s.pc + 2), .read (mkWord hi (indexLow lo (ix
        s.regs))), .write (mkWord (if indexCarry lo (ix s.regs) then op s.regs &&& (hi + 1) else hi) (indexLow lo (ix
        s.regs))) (op s.regs &&& (hi + 1))] := by
  rw [run_of_boundary _ _ h]
  cases hx : indexCarry lo (ix s.regs)
  all_goals
    subst_vars
    simp only [Bus.after_read, Bus.after_nil, BitVec.ofNat_eq_ofNat] at hx
    simp [tAbiW, hx, unstableStore, unstableValue, State.baseHigh, finish, cycle, beginFetch, Descr.run,
      LastMark.holds, PollRule.polls, FetchMark.holds, fetchTo, fetchLo, fetchHiIndexed, dummyAt, fixCycle,
      State.pollAnswer, State.irqPending, State.ea, BitVec.add_assoc]
    exact ⟨rfl, rfl, rfl, rfl, rfl, rfl, rfl, rfl⟩

/-- T_ABI_M (R87). The poll comes after the operation. -/
theorem run_tAbiM (ix : Regs → Byte) (op : RmwOp) (s : State) (h : s.t = 0) {lo hi m : Byte}
    (h_lo : (s.bus.after 1 [.read s.pc]).answer (s.pc + 1) = lo)
    (h_hi : (s.bus.after 1 [.read s.pc, .read (s.pc + 1)]).answer (s.pc + 2) = hi)
    (h_m : (s.bus.after 1 [.read s.pc, .read (s.pc + 1), .read (s.pc + 2), .read (mkWord hi (indexLow lo (ix
      s.regs)))]).answer (mkWord (if indexCarry lo (ix s.regs) then hi + 1 else hi) (indexLow lo (ix s.regs))) = m) :
    ∃ t, run (tAbiM ix op) s = .next t ∧
      Settled s t (op s.regs m).1 (s.pc + 3) (State.pollAnswer { s with regs := (op s.regs m).1 }) ∧
      t.nmiPending = s.nmiPending ∧
      t.bus = s.bus.after 1 [.read s.pc, .read (s.pc + 1), .read (s.pc + 2), .read (mkWord hi (indexLow lo (ix
        s.regs))), .read (mkWord (if indexCarry lo (ix s.regs) then hi + 1 else hi) (indexLow lo (ix s.regs))),
        .write (mkWord (if indexCarry lo (ix s.regs) then hi + 1 else hi) (indexLow lo (ix s.regs))) m, .write
        (mkWord (if indexCarry lo (ix s.regs) then hi + 1 else hi) (indexLow lo (ix s.regs))) (op s.regs m).2] := by
  rw [run_of_boundary _ _ h]
  cases hx : indexCarry lo (ix s.regs)
  all_goals
    subst_vars
    simp only [Bus.after_read, Bus.after_nil, BitVec.ofNat_eq_ofNat] at hx
    simp [tAbiM, hx, finish, cycle, beginFetch, Descr.run, LastMark.holds, PollRule.polls, FetchMark.holds, fetchTo,
      fetchLo, fetchHiIndexed, dummyAt, readAt, rmwCycles, fixCycle, State.pollAnswer, State.irqPending, State.ea,
      BitVec.add_assoc]
    exact ⟨rfl, rfl, rfl, rfl, rfl, rfl, rfl, rfl⟩

/-- T_IZY_R (R91), no page crossed. -/
theorem run_tIzyR_same (op : ReadOp) (s : State) (h : s.t = 0) {b lo hi m : Byte} (hx : indexCarry lo s.regs.y =
  false)
    (h_b : (s.bus.after 1 [.read s.pc]).answer (s.pc + 1) = b)
    (h_lo : (s.bus.after 1 [.read s.pc, .read (s.pc + 1)]).answer (zeroPage b) = lo)
    (h_hi : (s.bus.after 1 [.read s.pc, .read (s.pc + 1), .read (zeroPage b)]).answer (zeroPage (b + 1)) = hi)
    (h_m : (s.bus.after 1 [.read s.pc, .read (s.pc + 1), .read (zeroPage b), .read (zeroPage (b + 1))]).answer
      (mkWord hi (indexLow lo s.regs.y)) = m) :
    ∃ t, run (tIzyR op) s = .next t ∧ Settled s t (op s.regs m) (s.pc + 2) s.pollAnswer ∧
      t.nmiPending = s.nmiPending ∧
      t.bus = s.bus.after 1 [.read s.pc, .read (s.pc + 1), .read (zeroPage b), .read (zeroPage (b + 1)), .read
        (mkWord hi (indexLow lo s.regs.y))] := by
  subst h_b h_lo h_hi h_m
  rw [run_of_boundary _ _ h]
  simp only [Bus.after_read, Bus.after_nil, BitVec.ofNat_eq_ofNat] at hx
  simp [tIzyR, hx, finish, cycle, beginFetch, Descr.run, LastMark.holds, PollRule.polls, FetchMark.holds, fetchTo,
    fetchPtr, ptrReadLo, ptrReadHiIndexed, readAt, readReady, readUnlessCross, State.pollAnswer, State.irqPending,
    State.ea, regY, BitVec.add_assoc]
  exact ⟨rfl, rfl, rfl, rfl, rfl, rfl, rfl, rfl⟩

/-- T_IZY_R (R91), a page crossed. -/
theorem run_tIzyR_cross (op : ReadOp) (s : State) (h : s.t = 0) {b lo hi m : Byte} (hx : indexCarry lo s.regs.y =
  true)
    (h_b : (s.bus.after 1 [.read s.pc]).answer (s.pc + 1) = b)
    (h_lo : (s.bus.after 1 [.read s.pc, .read (s.pc + 1)]).answer (zeroPage b) = lo)
    (h_hi : (s.bus.after 1 [.read s.pc, .read (s.pc + 1), .read (zeroPage b)]).answer (zeroPage (b + 1)) = hi)
    (h_m : (s.bus.after 1 [.read s.pc, .read (s.pc + 1), .read (zeroPage b), .read (zeroPage (b + 1)), .read (mkWord
      hi (indexLow lo s.regs.y))]).answer (mkWord (hi + 1) (indexLow lo s.regs.y)) = m) :
    ∃ t, run (tIzyR op) s = .next t ∧ Settled s t (op s.regs m) (s.pc + 2) s.pollAnswer ∧
      t.nmiPending = s.nmiPending ∧
      t.bus = s.bus.after 1 [.read s.pc, .read (s.pc + 1), .read (zeroPage b), .read (zeroPage (b + 1)), .read
        (mkWord hi (indexLow lo s.regs.y)), .read (mkWord (hi + 1) (indexLow lo s.regs.y))] := by
  subst h_b h_lo h_hi h_m
  rw [run_of_boundary _ _ h]
  simp only [Bus.after_read, Bus.after_nil, BitVec.ofNat_eq_ofNat] at hx
  simp [tIzyR, hx, finish, cycle, beginFetch, Descr.run, LastMark.holds, PollRule.polls, FetchMark.holds, fetchTo,
    fetchPtr, ptrReadLo, ptrReadHiIndexed, readAt, readReady, readUnlessCross, State.pollAnswer, State.irqPending,
    State.ea, regY, BitVec.add_assoc]
  exact ⟨rfl, rfl, rfl, rfl, rfl, rfl, rfl, rfl⟩

/-- T_IZY_W (R92) with an ordinary store. -/
theorem run_tIzyW (op : WriteOp) (s : State) (h : s.t = 0) {b lo hi : Byte}
    (h_b : (s.bus.after 1 [.read s.pc]).answer (s.pc + 1) = b)
    (h_lo : (s.bus.after 1 [.read s.pc, .read (s.pc + 1)]).answer (zeroPage b) = lo)
    (h_hi : (s.bus.after 1 [.read s.pc, .read (s.pc + 1), .read (zeroPage b)]).answer (zeroPage (b + 1)) = hi) :
    ∃ t, run (tIzyW (writeReady State.ea op)) s = .next t ∧ Settled s t s.regs (s.pc + 2) s.pollAnswer ∧
      t.nmiPending = s.nmiPending ∧
      t.bus = s.bus.after 1 [.read s.pc, .read (s.pc + 1), .read (zeroPage b), .read (zeroPage (b + 1)), .read
        (mkWord hi (indexLow lo s.regs.y)), .write (mkWord (if indexCarry lo s.regs.y then hi + 1 else hi) (indexLow
        lo s.regs.y)) (op s.regs)] := by
  rw [run_of_boundary _ _ h]
  cases hx : indexCarry lo s.regs.y
  all_goals
    subst_vars
    simp only [Bus.after_read, Bus.after_nil, BitVec.ofNat_eq_ofNat] at hx
    simp [tIzyW, hx, finish, cycle, beginFetch, Descr.run, LastMark.holds, PollRule.polls, FetchMark.holds, fetchTo,
      fetchPtr, ptrReadLo, ptrReadHiIndexed, dummyAt, readAt, writeReady, fixCycle, State.pollAnswer,
      State.irqPending, State.ea, regY, BitVec.add_assoc]
    exact ⟨rfl, rfl, rfl, rfl, rfl, rfl, rfl, rfl⟩

/-- T_IZY_W (R92) with an unstable store (47_unofficial R183). -/
theorem run_tIzyW_unstable (op : WriteOp) (before : ImpOp) (s : State) (h : s.t = 0) {b lo hi : Byte}
    (h_b : (s.bus.after 1 [.read s.pc]).answer (s.pc + 1) = b)
    (h_lo : (s.bus.after 1 [.read s.pc, .read (s.pc + 1)]).answer (zeroPage b) = lo)
    (h_hi : (s.bus.after 1 [.read s.pc, .read (s.pc + 1), .read (zeroPage b)]).answer (zeroPage (b + 1)) = hi) :
    ∃ t, run (tIzyW (unstableStore op before)) s = .next t ∧ Settled s t (before s.regs) (s.pc + 2) s.pollAnswer ∧
      t.nmiPending = s.nmiPending ∧
      t.bus = s.bus.after 1 [.read s.pc, .read (s.pc + 1), .read (zeroPage b), .read (zeroPage (b + 1)), .read
        (mkWord hi (indexLow lo s.regs.y)), .write (mkWord (if indexCarry lo s.regs.y then op s.regs &&& (hi + 1)
        else hi) (indexLow lo s.regs.y)) (op s.regs &&& (hi + 1))] := by
  rw [run_of_boundary _ _ h]
  cases hx : indexCarry lo s.regs.y
  all_goals
    subst_vars
    simp only [Bus.after_read, Bus.after_nil, BitVec.ofNat_eq_ofNat] at hx
    simp [tIzyW, hx, unstableStore, unstableValue, State.baseHigh, finish, cycle, beginFetch, Descr.run,
      LastMark.holds, PollRule.polls, FetchMark.holds, fetchTo, fetchPtr, ptrReadLo, ptrReadHiIndexed, dummyAt,
      readAt, fixCycle, State.pollAnswer, State.irqPending, State.ea, regY, BitVec.add_assoc]
    exact ⟨rfl, rfl, rfl, rfl, rfl, rfl, rfl, rfl⟩

/-- T_IZY_M (R93). The poll comes after the operation. -/
theorem run_tIzyM (op : RmwOp) (s : State) (h : s.t = 0) {b lo hi m : Byte}
    (h_b : (s.bus.after 1 [.read s.pc]).answer (s.pc + 1) = b)
    (h_lo : (s.bus.after 1 [.read s.pc, .read (s.pc + 1)]).answer (zeroPage b) = lo)
    (h_hi : (s.bus.after 1 [.read s.pc, .read (s.pc + 1), .read (zeroPage b)]).answer (zeroPage (b + 1)) = hi)
    (h_m : (s.bus.after 1 [.read s.pc, .read (s.pc + 1), .read (zeroPage b), .read (zeroPage (b + 1)), .read (mkWord
      hi (indexLow lo s.regs.y))]).answer (mkWord (if indexCarry lo s.regs.y then hi + 1 else hi) (indexLow lo
      s.regs.y)) = m) :
    ∃ t, run (tIzyM op) s = .next t ∧
      Settled s t (op s.regs m).1 (s.pc + 2) (State.pollAnswer { s with regs := (op s.regs m).1 }) ∧
      t.nmiPending = s.nmiPending ∧
      t.bus = s.bus.after 1 [.read s.pc, .read (s.pc + 1), .read (zeroPage b), .read (zeroPage (b + 1)), .read
        (mkWord hi (indexLow lo s.regs.y)), .read (mkWord (if indexCarry lo s.regs.y then hi + 1 else hi) (indexLow
        lo s.regs.y)), .write (mkWord (if indexCarry lo s.regs.y then hi + 1 else hi) (indexLow lo s.regs.y)) m,
        .write (mkWord (if indexCarry lo s.regs.y then hi + 1 else hi) (indexLow lo s.regs.y)) (op s.regs m).2] := by
  rw [run_of_boundary _ _ h]
  cases hx : indexCarry lo s.regs.y
  all_goals
    subst_vars
    simp only [Bus.after_read, Bus.after_nil, BitVec.ofNat_eq_ofNat] at hx
    simp [tIzyM, hx, finish, cycle, beginFetch, Descr.run, LastMark.holds, PollRule.polls, FetchMark.holds, fetchTo,
      fetchPtr, ptrReadLo, ptrReadHiIndexed, dummyAt, readAt, rmwCycles, fixCycle, State.pollAnswer,
      State.irqPending, State.ea, regY, BitVec.add_assoc]
    exact ⟨rfl, rfl, rfl, rfl, rfl, rfl, rfl, rfl⟩

/-- T_JMP_ABS (R95). -/
theorem run_tJmpAbs (s : State) (h : s.t = 0) {lo hi : Byte}
    (h_lo : (s.bus.after 1 [.read s.pc]).answer (s.pc + 1) = lo)
    (h_hi : (s.bus.after 1 [.read s.pc, .read (s.pc + 1)]).answer (s.pc + 2) = hi) :
    ∃ t, run tJmpAbs s = .next t ∧ Settled s t s.regs (mkWord hi lo) s.pollAnswer ∧ t.nmiPending = s.nmiPending ∧
      t.bus = s.bus.after 1 [.read s.pc, .read (s.pc + 1), .read (s.pc + 2)] := by
  subst h_lo h_hi
  rw [run_of_boundary _ _ h]
  simp [tJmpAbs, finish, cycle, beginFetch, Descr.run, LastMark.holds, PollRule.polls, FetchMark.holds, fetchTo,
    fetchLo, Descr.lastly, State.pollAnswer, State.irqPending, BitVec.add_assoc]
  exact ⟨rfl, rfl, rfl, rfl, rfl, rfl, rfl, rfl⟩

/-- T_JMP_IND (R96). -/
theorem run_tJmpInd (s : State) (h : s.t = 0) {pl ph lo hi : Byte}
    (h_pl : (s.bus.after 1 [.read s.pc]).answer (s.pc + 1) = pl)
    (h_ph : (s.bus.after 1 [.read s.pc, .read (s.pc + 1)]).answer (s.pc + 2) = ph)
    (h_lo : (s.bus.after 1 [.read s.pc, .read (s.pc + 1), .read (s.pc + 2)]).answer (mkWord ph pl) = lo)
    (h_hi : (s.bus.after 1 [.read s.pc, .read (s.pc + 1), .read (s.pc + 2), .read (mkWord ph pl)]).answer (mkWord ph
      (pl + 1)) = hi) :
    ∃ t, run tJmpInd s = .next t ∧ Settled s t s.regs (mkWord hi lo) s.pollAnswer ∧ t.nmiPending = s.nmiPending ∧
      t.bus = s.bus.after 1 [.read s.pc, .read (s.pc + 1), .read (s.pc + 2), .read (mkWord ph pl), .read (mkWord ph
        (pl + 1))] := by
  subst h_pl h_ph h_lo h_hi
  rw [run_of_boundary _ _ h]
  simp [tJmpInd, finish, cycle, beginFetch, Descr.run, LastMark.holds, PollRule.polls, FetchMark.holds, fetchTo,
    fetchPtr, readAt, Descr.lastly, State.pollAnswer, State.irqPending, BitVec.add_assoc]
  exact ⟨rfl, rfl, rfl, rfl, rfl, rfl, rfl, rfl⟩

/-- T_JSR (R97). -/
theorem run_tJsr (s : State) (h : s.t = 0) {lo hi : Byte}
    (h_lo : (s.bus.after 1 [.read s.pc]).answer (s.pc + 1) = lo)
    (h_hi : (s.bus.after 1 [.read s.pc, .read (s.pc + 1), .read (stackAddr s.regs.s), .write (stackAddr s.regs.s)
      (hiByte (s.pc + 2)), .write (stackAddr (s.regs.s - 1)) (loByte (s.pc + 2))]).answer (s.pc + 2) = hi) :
    ∃ t, run tJsr s = .next t ∧ Settled s t { s.regs with s := s.regs.s - 2 } (mkWord hi lo) s.pollAnswer ∧
      t.nmiPending = s.nmiPending ∧
      t.bus = s.bus.after 1 [.read s.pc, .read (s.pc + 1), .read (stackAddr s.regs.s), .write (stackAddr s.regs.s)
        (hiByte (s.pc + 2)), .write (stackAddr (s.regs.s - 1)) (loByte (s.pc + 2)), .read (s.pc + 2)] := by
  subst h_lo h_hi
  rw [run_of_boundary _ _ h]
  simp [tJsr, finish, cycle, beginFetch, Descr.run, LastMark.holds, PollRule.polls, FetchMark.holds, fetchTo,
    fetchLo, dummyAt, push, Descr.lastly, State.pollAnswer, State.irqPending, State.top, BitVec.add_assoc,
    byte_sub_one_sub_one]
  exact ⟨rfl, rfl, rfl, rfl, rfl, rfl, rfl, rfl⟩

/-- T_RTS (R98). -/
theorem run_tRts (s : State) (h : s.t = 0) {lo hi : Byte}
    (h_lo : (s.bus.after 1 [.read s.pc, .read (s.pc + 1), .read (stackAddr s.regs.s)]).answer (stackAddr (s.regs.s +
      1)) = lo)
    (h_hi : (s.bus.after 1 [.read s.pc, .read (s.pc + 1), .read (stackAddr s.regs.s), .read (stackAddr (s.regs.s +
      1))]).answer (stackAddr (s.regs.s + 2)) = hi) :
    ∃ t, run tRts s = .next t ∧ Settled s t { s.regs with s := s.regs.s + 2 } (mkWord hi lo + 1) s.pollAnswer ∧
      t.nmiPending = s.nmiPending ∧
      t.bus = s.bus.after 1 [.read s.pc, .read (s.pc + 1), .read (stackAddr s.regs.s), .read (stackAddr (s.regs.s +
        1)), .read (stackAddr (s.regs.s + 2)), .read (mkWord hi lo)] := by
  subst h_lo h_hi
  rw [run_of_boundary _ _ h]
  simp [tRts, finish, cycle, beginFetch, Descr.run, LastMark.holds, PollRule.polls, FetchMark.holds, dummyAt, readAt,
    Descr.lastly, State.pollAnswer, State.irqPending, State.top, BitVec.add_assoc]
  exact ⟨rfl, rfl, rfl, rfl, rfl, rfl, rfl, rfl⟩

/-- T_RTI (R99). The poll comes after the status is pulled. -/
theorem run_tRti (s : State) (h : s.t = 0) {p lo hi : Byte}
    (h_p : (s.bus.after 1 [.read s.pc, .read (s.pc + 1), .read (stackAddr s.regs.s)]).answer (stackAddr (s.regs.s +
      1)) = p)
    (h_lo : (s.bus.after 1 [.read s.pc, .read (s.pc + 1), .read (stackAddr s.regs.s), .read (stackAddr (s.regs.s +
      1))]).answer (stackAddr (s.regs.s + 2)) = lo)
    (h_hi : (s.bus.after 1 [.read s.pc, .read (s.pc + 1), .read (stackAddr s.regs.s), .read (stackAddr (s.regs.s +
      1)), .read (stackAddr (s.regs.s + 2))]).answer (stackAddr (s.regs.s + 3)) = hi) :
    ∃ t, run tRti s = .next t ∧
      Settled s t { unpack s.regs p with s := s.regs.s + 3 } (mkWord hi lo) (State.pollAnswer { s with regs := unpack s.regs p }) ∧ t.nmiPending = s.nmiPending ∧
      t.bus = s.bus.after 1 [.read s.pc, .read (s.pc + 1), .read (stackAddr s.regs.s), .read (stackAddr (s.regs.s +
        1)), .read (stackAddr (s.regs.s + 2)), .read (stackAddr (s.regs.s + 3))] := by
  subst h_p h_lo h_hi
  rw [run_of_boundary _ _ h]
  simp [tRti, unpack, finish, cycle, beginFetch, Descr.run, LastMark.holds, PollRule.polls, FetchMark.holds, dummyAt,
    readAt, Descr.lastly, State.pollAnswer, State.irqPending, State.top, BitVec.add_assoc]
  exact ⟨rfl, rfl, rfl, rfl, rfl, rfl, rfl, rfl⟩

/-- T_PUSH (R101). -/
theorem run_tPush (v : WriteOp) (s : State) (h : s.t = 0) :
    ∃ t, run (tPush v) s = .next t ∧ Settled s t { s.regs with s := s.regs.s - 1 } (s.pc + 1) s.pollAnswer ∧
      t.nmiPending = s.nmiPending ∧
      t.bus = s.bus.after 1 [.read s.pc, .read (s.pc + 1), .write (stackAddr s.regs.s) (v s.regs)] := by
  rw [run_of_boundary _ _ h]
  simp [tPush, finish, cycle, beginFetch, Descr.run, LastMark.holds, PollRule.polls, FetchMark.holds, dummyAt, push,
    State.pollAnswer, State.irqPending, State.top]
  exact ⟨rfl, rfl, rfl, rfl, rfl, rfl, rfl, rfl⟩

/-- T_PULL (R102). -/
theorem run_tPull (op : ReadOp) (s : State) (h : s.t = 0) {v : Byte}
    (h_v : (s.bus.after 1 [.read s.pc, .read (s.pc + 1), .read (stackAddr s.regs.s)]).answer (stackAddr (s.regs.s +
      1)) = v) :
    ∃ t, run (tPull op) s = .next t ∧ Settled s t (op { s.regs with s := s.regs.s + 1 } v) (s.pc + 1) s.pollAnswer ∧
      t.nmiPending = s.nmiPending ∧
      t.bus = s.bus.after 1 [.read s.pc, .read (s.pc + 1), .read (stackAddr s.regs.s), .read (stackAddr (s.regs.s +
        1))] := by
  subst h_v
  rw [run_of_boundary _ _ h]
  simp [tPull, finish, cycle, beginFetch, Descr.run, LastMark.holds, PollRule.polls, FetchMark.holds, dummyAt,
    State.pollAnswer, State.irqPending, State.top]
  exact ⟨rfl, rfl, rfl, rfl, rfl, rfl, rfl, rfl⟩

/-- T_BRK (R100) of a software BRK: with `P_BRK_POLLS` its own poll finds nothing, since the NMI is consumed and I is
set. -/
theorem run_tBrk (s : State) (h : s.t = 0) {lo hi : Byte}
    (h_lo : (s.bus.after 1 [.read s.pc, .read (s.pc + 1), .write (stackAddr s.regs.s) (hiByte (s.pc + 2)), .write
      (stackAddr (s.regs.s - 1)) (loByte (s.pc + 2)), .write (stackAddr (s.regs.s - 2)) (pack s.regs true)]).answer
      (if s.nmiPending then nmiVector else irqVector) = lo)
    (h_hi : (s.bus.after 1 [.read s.pc, .read (s.pc + 1), .write (stackAddr s.regs.s) (hiByte (s.pc + 2)), .write
      (stackAddr (s.regs.s - 1)) (loByte (s.pc + 2)), .write (stackAddr (s.regs.s - 2)) (pack s.regs true), .read
      ((if s.nmiPending then nmiVector else irqVector))]).answer ((if s.nmiPending then nmiVector else irqVector) +
      1) = hi) :
    ∃ t, run tBrk s = .next t ∧ Settled s t { s.regs with s := s.regs.s - 3, i := true } (mkWord hi lo) (if
      s.params.brkPolls then false else s.intRequested) ∧
      t.nmiPending = false ∧ t.bus = s.bus.after 1 [.read s.pc, .read (s.pc + 1), .write (stackAddr s.regs.s) (hiByte
        (s.pc + 2)), .write (stackAddr (s.regs.s - 1)) (loByte (s.pc + 2)), .write (stackAddr (s.regs.s - 2)) (pack
        s.regs true), .read ((if s.nmiPending then nmiVector else irqVector)), .read ((if s.nmiPending then nmiVector
        else irqVector) + 1)] := by
  subst h_lo h_hi
  rw [run_of_boundary _ _ h]
  cases hb : s.params.brkPolls <;> cases hn : s.nmiPending
  all_goals
    simp [tBrk, pack, State.selectVector, hn, byte_sub_one_sub_one, byte_sub_two_sub_one, hb, finish, cycle,
      beginFetch, Descr.run, LastMark.holds, PollRule.polls, FetchMark.holds, readAt, push, Descr.lastly,
      State.irqPending, State.top, BitVec.add_assoc]
    exact ⟨rfl, rfl, rfl, rfl, rfl, rfl, rfl, rfl⟩

/-- T_BRK (R100) of a hardware interrupt entry (60_exceptions R201), which never polls. -/
theorem takeInterrupt_of_boundary (s : State) (h : s.t = 0) {lo hi : Byte}
    (h_lo : (s.bus.after 1 [.read s.pc, .read s.pc, .write (stackAddr s.regs.s) (hiByte s.pc), .write (stackAddr
      (s.regs.s - 1)) (loByte s.pc), .write (stackAddr (s.regs.s - 2)) (pack s.regs false)]).answer (if s.nmiPending
      then nmiVector else irqVector) = lo)
    (h_hi : (s.bus.after 1 [.read s.pc, .read s.pc, .write (stackAddr s.regs.s) (hiByte s.pc), .write (stackAddr
      (s.regs.s - 1)) (loByte s.pc), .write (stackAddr (s.regs.s - 2)) (pack s.regs false), .read ((if s.nmiPending
      then nmiVector else irqVector))]).answer ((if s.nmiPending then nmiVector else irqVector) + 1) = hi) :
    ∃ t, takeInterrupt s = .next t ∧ Settled s t { s.regs with s := s.regs.s - 3, i := true } (mkWord hi lo) false ∧
      t.nmiPending = false ∧ t.bus = s.bus.after 1 [.read s.pc, .read s.pc, .write (stackAddr s.regs.s) (hiByte
        s.pc), .write (stackAddr (s.regs.s - 1)) (loByte s.pc), .write (stackAddr (s.regs.s - 2)) (pack s.regs
        false), .read ((if s.nmiPending then nmiVector else irqVector)), .read ((if s.nmiPending then nmiVector else
        irqVector) + 1)] := by
  subst h_lo h_hi
  rw [takeInterrupt, if_pos h]
  cases hn : s.nmiPending
  all_goals
    simp [tBrk, pack, State.selectVector, hn, byte_sub_one_sub_one, byte_sub_two_sub_one, beginEntry, finish, cycle,
      Descr.run, LastMark.holds, PollRule.polls, FetchMark.holds, readAt, push, Descr.lastly, State.top]
    exact ⟨rfl, rfl, rfl, rfl, rfl, rfl, rfl, rfl⟩

/-- T_JAM (R103): the opcode is fetched, and there it stays. -/
theorem run_tJam (s : State) (h : s.t = 0) : run tJam s = .next (beginFetch s) := by
  rw [run_of_boundary _ _ h]
  simp [tJam, finish, cycle]

/-- T_REL (R94): the condition read at cycle 2, the target from the next instruction's address. -/
theorem run_tRel (cond : BranchCond) (s : State) (h : s.t = 0) {off : Byte}
    (h_off : (s.bus.after 1 [.read s.pc]).answer (s.pc + 1) = off) :
    ∃ t, run (tRel cond) s = .next t ∧
      Settled s t s.regs (if cond s.regs then s.pc + 2 + sext16 off else s.pc + 2) s.pollAnswer ∧
      t.nmiPending = s.nmiPending ∧
      t.bus = s.bus.after 1 ([.read s.pc, .read (s.pc + 1)] ++
        (if cond s.regs then
          [.read (s.pc + 2)] ++
            (if hiByte (s.pc + 2 + sext16 off) = hiByte (s.pc + 2) then []
            else [.read (mkWord (hiByte (s.pc + 2)) (loByte (s.pc + 2 + sext16 off)))])
        else [])) := by
  subst h_off
  rw [run_of_boundary _ _ h]
  cases hc : cond s.regs
  · simp [tRel, hc, finish, cycle, beginFetch, Descr.run, LastMark.holds, PollRule.polls, FetchMark.holds, dummyAt,
      Descr.lastly, State.pollAnswer, State.irqPending, BitVec.add_assoc]
    exact ⟨rfl, rfl, rfl, rfl, rfl, rfl, rfl, rfl⟩
  · by_cases hp : hiByte (s.pc + 2#16 + sext16 ((s.bus.read 1 s.pc).answer (s.pc + 1#16))) = hiByte (s.pc + 2#16)
    · have hw : mkWord (hiByte (s.pc + 2#16)) (loByte (s.pc + 2#16 + sext16 ((s.bus.read 1 s.pc).answer (s.pc + 1#16))))
          = s.pc + 2#16 + sext16 ((s.bus.read 1 s.pc).answer (s.pc + 1#16)) := by rw [← hp, mkWord_hi_lo]
      simp [tRel, hc, hp, hw, State.branchTarget, finish, cycle, beginFetch, Descr.run, LastMark.holds,
        PollRule.polls, FetchMark.holds, dummyAt, Descr.lastly, State.pollAnswer, State.irqPending, word_succ']
      exact ⟨rfl, rfl, rfl, rfl, rfl, rfl, rfl, rfl⟩
    · simp [tRel, hc, hp, State.branchTarget, loByte_mkWord, mkWord_hi_lo, finish, cycle, beginFetch, Descr.run,
        LastMark.holds, PollRule.polls, FetchMark.holds, dummyAt, Descr.lastly, State.pollAnswer, State.irqPending,
        word_succ']
      exact ⟨rfl, rfl, rfl, rfl, rfl, rfl, rfl, rfl⟩

end Sys2Proof.Machine
end

