-- ==== Sys2Proof/Laws/AnyBus.lean ====
section
/-! SUPPORT. The templates by addressing mode on any bus, devices included: where the sequence ends, for the byte the bus
answered to the operand's read. -/

namespace Sys2Proof.Machine

open Sys2Proof

/-- A read template (40_sequencer R76 to R91): its last access is the read whose byte the ReadOp takes. -/
theorem run_read (m : MemMode) (op : ReadOp) {s : State} (h : s.t = 0) :
    ∃ t pc lead a, run (readTemplate m op) s = .next t ∧
      Settled s t (op s.regs ((s.bus.after 1 lead).answer a)) pc s.pollAnswer ∧ t.nmiPending = s.nmiPending ∧
      t.bus = s.bus.after 1 (lead ++ [.read a]) := by
  cases m
  case zp => obtain ⟨t, ht⟩ := run_tZpR op s h rfl rfl; exact ⟨t, _, [_, _], _, ht⟩
  case zpx => obtain ⟨t, ht⟩ := run_tZpiR regX op s h rfl rfl; exact ⟨t, _, [_, _, _], _, ht⟩
  case zpy => obtain ⟨t, ht⟩ := run_tZpiR regY op s h rfl rfl; exact ⟨t, _, [_, _, _], _, ht⟩
  case abs => obtain ⟨t, ht⟩ := run_tAbsR op s h rfl rfl rfl; exact ⟨t, _, [_, _, _], _, ht⟩
  case abx =>
    cases hx : indexCarry ((s.bus.after 1 [.read s.pc]).answer (s.pc + 1)) (regX s.regs)
    · obtain ⟨t, ht⟩ := run_tAbiR_same regX op s h hx rfl rfl rfl; exact ⟨t, _, [_, _, _], _, ht⟩
    · obtain ⟨t, ht⟩ := run_tAbiR_cross regX op s h hx rfl rfl rfl; exact ⟨t, _, [_, _, _, _], _, ht⟩
  case aby =>
    cases hx : indexCarry ((s.bus.after 1 [.read s.pc]).answer (s.pc + 1)) (regY s.regs)
    · obtain ⟨t, ht⟩ := run_tAbiR_same regY op s h hx rfl rfl rfl; exact ⟨t, _, [_, _, _], _, ht⟩
    · obtain ⟨t, ht⟩ := run_tAbiR_cross regY op s h hx rfl rfl rfl; exact ⟨t, _, [_, _, _, _], _, ht⟩
  case izx => obtain ⟨t, ht⟩ := run_tIzxR op s h rfl rfl rfl rfl; exact ⟨t, _, [_, _, _, _, _], _, ht⟩
  case izy =>
    cases hx : indexCarry ((s.bus.after 1 [.read s.pc, .read (s.pc + 1)]).answer
      (zeroPage ((s.bus.after 1 [.read s.pc]).answer (s.pc + 1)))) s.regs.y
    · obtain ⟨t, ht⟩ := run_tIzyR_same op s h hx rfl rfl rfl rfl; exact ⟨t, _, [_, _, _, _], _, ht⟩
    · obtain ⟨t, ht⟩ := run_tIzyR_cross op s h hx rfl rfl rfl rfl; exact ⟨t, _, [_, _, _, _, _], _, ht⟩

/-- A write template (40_sequencer R77 to R92): no register changes. -/
theorem run_write (m : MemMode) (op : WriteOp) {s : State} (h : s.t = 0) :
    ∃ t pc lead a, run (writeTemplate m op) s = .next t ∧ Settled s t s.regs pc s.pollAnswer ∧
      t.nmiPending = s.nmiPending ∧ t.bus = s.bus.after 1 (lead ++ [.write a (op s.regs)]) := by
  cases m
  case zp => obtain ⟨t, ht⟩ := run_tZpW op s h rfl; exact ⟨t, _, [_, _], _, ht⟩
  case zpx => obtain ⟨t, ht⟩ := run_tZpiW regX op s h rfl; exact ⟨t, _, [_, _, _], _, ht⟩
  case zpy => obtain ⟨t, ht⟩ := run_tZpiW regY op s h rfl; exact ⟨t, _, [_, _, _], _, ht⟩
  case abs => obtain ⟨t, ht⟩ := run_tAbsW op s h rfl rfl; exact ⟨t, _, [_, _, _], _, ht⟩
  case abx => obtain ⟨t, ht⟩ := run_tAbiW regX op s h rfl rfl; exact ⟨t, _, [_, _, _, _], _, ht⟩
  case aby => obtain ⟨t, ht⟩ := run_tAbiW regY op s h rfl rfl; exact ⟨t, _, [_, _, _, _], _, ht⟩
  case izx => obtain ⟨t, ht⟩ := run_tIzxW op s h rfl rfl rfl; exact ⟨t, _, [_, _, _, _, _], _, ht⟩
  case izy => obtain ⟨t, ht⟩ := run_tIzyW op s h rfl rfl rfl; exact ⟨t, _, [_, _, _, _, _], _, ht⟩

/-- A read-modify-write template (40_sequencer R78 to R93): the byte read, its dummy write, the result's write. -/
theorem run_rmw (m : MemMode) (op : RmwOp) {s : State} (h : s.t = 0) :
    ∃ t pc lead a v, run (rmwTemplate m op) s = .next t ∧ v = (s.bus.after 1 lead).answer a ∧
      Settled s t (op s.regs v).1 pc (State.pollAnswer { s with regs := (op s.regs v).1 }) ∧
      t.nmiPending = s.nmiPending ∧
      t.bus = s.bus.after 1 (lead ++ [.read a, .write a v, .write a (op s.regs v).2]) := by
  cases m
  case zp => obtain ⟨t, ht, hs⟩ := run_tZpM op s h rfl rfl; exact ⟨t, _, [_, _], _, _, ht, rfl, hs⟩
  case zpx => obtain ⟨t, ht, hs⟩ := run_tZpiM regX op s h rfl rfl; exact ⟨t, _, [_, _, _], _, _, ht, rfl, hs⟩
  case zpy => obtain ⟨t, ht, hs⟩ := run_tZpiM regY op s h rfl rfl; exact ⟨t, _, [_, _, _], _, _, ht, rfl, hs⟩
  case abs => obtain ⟨t, ht, hs⟩ := run_tAbsM op s h rfl rfl rfl; exact ⟨t, _, [_, _, _], _, _, ht, rfl, hs⟩
  case abx => obtain ⟨t, ht, hs⟩ := run_tAbiM regX op s h rfl rfl rfl; exact ⟨t, _, [_, _, _, _], _, _, ht, rfl, hs⟩
  case aby => obtain ⟨t, ht, hs⟩ := run_tAbiM regY op s h rfl rfl rfl; exact ⟨t, _, [_, _, _, _], _, _, ht, rfl, hs⟩
  case izx =>
    obtain ⟨t, ht, hs⟩ := run_tIzxM op s h rfl rfl rfl rfl; exact ⟨t, _, [_, _, _, _, _], _, _, ht, rfl, hs⟩
  case izy =>
    obtain ⟨t, ht, hs⟩ := run_tIzyM op s h rfl rfl rfl rfl; exact ⟨t, _, [_, _, _, _, _], _, _, ht, rfl, hs⟩

end Sys2Proof.Machine
end

