-- ==== Sys2Proof/Laws/Modes.lean ====
section
/-! SUPPORT. The templates by addressing mode, where the instruction and its pointer are plain memory: the operand is
the one of 30_encoding R55, and the bus accesses are the lead of the mode and then the operand's own. -/

namespace Sys2Proof.Machine

open Sys2Proof

/-! ## Plain memory after reads -/

/-- Whether an access is a read. -/
def Access.isRead : Access → Bool
  | .read _ => true
  | .write _ _ => false

@[simp] theorem Bus.after_kindAt (l : List Access) (a : Word) : ∀ (b : Bus) (c : Nat),
    (b.after c l).kindAt a = b.kindAt a := by
  induction l with
  | nil => intro b c; rfl
  | cons x l ih => intro b c; cases x <;> simp [ih]

@[simp] theorem Bus.after_regions (l : List Access) : ∀ (b : Bus) (c : Nat), (b.after c l).regions = b.regions := by
  induction l with
  | nil => intro b c; rfl
  | cons x l ih => intro b c; cases x <;> simp [ih]

theorem Bus.after_append (l l' : List Access) : ∀ (b : Bus) (c : Nat),
    b.after c (l ++ l') = (b.after c l).after (c + l.length) l' := by
  induction l with
  | nil => intro b c; rfl
  | cons x l ih => intro b c; cases x <;> simp [ih, Nat.add_assoc, Nat.add_comm 1]

theorem Bus.wf_after (l : List Access) : ∀ (b : Bus) (c : Nat), b.mem.wf = true → (b.after c l).mem.wf = true := by
  induction l with
  | nil => intro b c h; exact h
  | cons x l ih =>
    intro b c h
    cases x with
    | read a => exact ih _ _ h
    | write a v => exact ih _ _ (Bus.wf_memAfter h a v)

/-- Reads change no plain byte. -/
theorem Bus.answer_after_reads {a : Word} (l : List Access) (hl : l.all Access.isRead = true) : ∀ (b : Bus) (c : Nat),
    b.kindAt a ≠ .device → (b.after c l).answer a = b.answer a := by
  induction l with
  | nil => intro b c _; rfl
  | cons x l ih =>
    intro b c h
    rw [List.all_cons, Bool.and_eq_true] at hl
    cases x with
    | read y =>
      rw [Bus.after_read, ih hl.2 _ _ (by simpa using h), Bus.answer_read h]
    | write y v => exact absurd hl.1 (by simp [Access.isRead])

/-- Where no device stands, a peek after only reads is the peek before. -/
theorem peek_after_reads {s : State} {a : Word} (h : s.PlainAt a) (l : List Access) (c : Nat)
    (hl : l.all Access.isRead = true) : (s.bus.after c l).answer a = s.peek a :=
  Bus.answer_after_reads l hl s.bus c h

/-- Memory, as a function of the address, after the accesses. -/
def storedBy (s : State) (mem : Word → Byte) : List Access → Word → Byte
  | [] => mem
  | .read _ :: l => storedBy s mem l
  | .write a v :: l => storedBy s (stored s mem a v) l

/-- What the plain bytes read as after any accesses. -/
theorem answer_after {s : State} (l : List Access) : ∀ (b : Bus) (c : Nat) (mem : Word → Byte),
    b.mem.wf = true → (∀ a, b.kindAt a = s.bus.kindAt a) → (∀ a, s.PlainAt a → b.answer a = mem a) →
    ∀ a, s.PlainAt a → (b.after c l).answer a = storedBy s mem l a := by
  induction l with
  | nil => intro b c mem _ _ hm; exact hm
  | cons x l ih =>
    intro b c mem hw hk hm
    cases x with
    | read y =>
      exact ih _ _ _ hw hk fun a ha => (Bus.answer_read (by rw [hk]; exact ha) c y).trans (hm a ha)
    | write y v =>
      refine ih _ _ _ (Bus.wf_memAfter hw y v) hk fun a ha => ?_
      rw [Bus.answer_write hw (by rw [hk]; exact ha), hk, hm a ha]
      by_cases h : a = y <;> simp [stored, h]

/-- A sequence that made these accesses leaves memory as they wrote it. -/
theorem memIs_after {s t : State} {l : List Access} {c : Nat} (hw : s.bus.mem.wf = true)
    (ht : t.bus = s.bus.after c l) : MemIs s t (storedBy s s.peek l) := by
  intro a ha
  rw [State.peek, ht]
  exact answer_after l s.bus c s.peek hw (fun _ => rfl) (fun _ _ => rfl) a ha

/-- A sequence that only read leaves memory as it was. -/
theorem memIs_reads {s t : State} {l : List Access} {c : Nat} (hl : l.all Access.isRead = true)
    (ht : t.bus = s.bus.after c l) : MemIs s t s.peek := by
  intro a ha
  rw [State.peek, ht]
  exact peek_after_reads ha l c hl

theorem storedBy_append (s : State) (l l' : List Access) : ∀ mem : Word → Byte,
    storedBy s mem (l ++ l') = storedBy s (storedBy s mem l) l' := by
  induction l with
  | nil => intro mem; rfl
  | cons x l ih => intro mem; cases x <;> exact ih _

theorem storedBy_reads (s : State) (mem : Word → Byte) : ∀ l : List Access, l.all Access.isRead = true →
    storedBy s mem l = mem
  | [], _ => rfl
  | .read _ :: l, h => storedBy_reads s mem l (by simpa [Access.isRead] using h)
  | .write _ _ :: _, h => by simp [Access.isRead] at h

/-- A second store to the same address replaces the first. -/
theorem stored_stored (s : State) (mem : Word → Byte) (a : Word) (v w : Byte) :
    stored s (stored s mem a v) a w = stored s mem a w := by
  funext x
  simp only [stored]
  split <;> simp_all

/-- The lead accesses of every mode are reads. -/
theorem leadAccesses_isRead (o : Operand) (s : State) (always : Bool) :
    (leadAccesses o s always).all Access.isRead = true := by
  cases o <;> simp [leadAccesses, Access.isRead]

/-- In plain memory the operand's read of a read-modify-write answers the byte memory holds. -/
theorem modifyByte_plain {s : State} {a : Word} (h : s.PlainAt a) (o : Operand) : s.modifyByte o a = s.peek a :=
  peek_after_reads h _ _ (leadAccesses_isRead ..)

/-! ## Where an instruction stands -/

theorem BytesAt.one {s : State} {a : Word} {b : Byte} (h : BytesAt s a [b]) : s.PlainAt a ∧ s.peek a = b :=
  ⟨h.1, h.2.1⟩

theorem BytesAt.two {s : State} {a : Word} {b b' : Byte} (h : BytesAt s a [b, b']) :
    s.PlainAt a ∧ s.peek a = b ∧ s.PlainAt (a + 1) ∧ s.peek (a + 1) = b' :=
  ⟨h.1, h.2.1, h.2.2.1, h.2.2.2.1⟩

/-- A ready instruction's operand bytes follow its opcode. -/
theorem Ready.operand {i : Instr} {s : State} (h : Ready i s) : BytesAt s (s.pc + 1) i.operand.bytes := h.2.2.1.2.2

theorem word_succ (w : Word) : w + 1 + 1 = w + 2 := by bv_omega

/-- The memory mode of an operand. -/
def memMode : Operand → Option MemMode
  | .zp _ => some .zp
  | .zpx _ => some .zpx
  | .zpy _ => some .zpy
  | .abs _ => some .abs
  | .abx _ => some .abx
  | .aby _ => some .aby
  | .izx _ => some .izx
  | .izy _ => some .izy
  | _ => none

/-- The address after the opcode and the operand bytes. -/
def pcPast (o : Operand) (s : State) : Word := s.pc + BitVec.ofNat 16 (1 + o.bytes.length)

/-- An indexed read crosses a page, or its accesses are those of the mode without the uncorrected one. -/
theorem leadAccesses_abx (w : Word) (s : State) (always : Bool) : leadAccesses (.abx w) s always =
    [.read s.pc, .read (s.pc + 1), .read (s.pc + 2)] ++
      (if always || indexCarry (loByte w) s.regs.x then [.read (uncorrected w s.regs.x)] else []) := rfl

theorem leadAccesses_aby (w : Word) (s : State) (always : Bool) : leadAccesses (.aby w) s always =
    [.read s.pc, .read (s.pc + 1), .read (s.pc + 2)] ++
      (if always || indexCarry (loByte w) s.regs.y then [.read (uncorrected w s.regs.y)] else []) := rfl

theorem leadAccesses_izy (p : Byte) (s : State) (always : Bool) : leadAccesses (.izy p) s always =
    [.read s.pc, .read (s.pc + 1), .read (zeroPage p), .read (zeroPage (p + 1))] ++
      (if always || indexCarry (loByte (s.zpWord p)) s.regs.y then [.read (uncorrected (s.zpWord p) s.regs.y)]
        else []) := rfl

@[simp] theorem loByte_zpWord (s : State) (p : Byte) : loByte (s.zpWord p) = s.peek (zeroPage p) := loByte_mkWord _ _
@[simp] theorem hiByte_zpWord (s : State) (p : Byte) : hiByte (s.zpWord p) = s.peek (zeroPage (p + 1)) :=
  hiByte_mkWord _ _

/-! ## The read modes (R76, R79, R82, R85, R88, R91) -/

/-- What a read template does where the instruction and its pointer are plain memory, whatever answers the operand's read. -/
theorem readTemplate_bus {m : MemMode} {o : Operand} (op : ReadOp) {s : State} (h : s.t = 0)
    (ho : memMode o = some m) (hb : BytesAt s (s.pc + 1) o.bytes) (hp : PointerPlain o s) :
    ∃ t ea, o.effAddr s = some ea ∧ run (readTemplate m op) s = .next t ∧
      Settled s t (op s.regs ((s.bus.after 1 (leadAccesses o s false)).answer ea)) (pcPast o s) s.pollAnswer ∧
      t.nmiPending = s.nmiPending ∧
      t.bus = s.bus.after 1 (leadAccesses o s false ++ [.read ea]) := by
  cases o <;> simp only [memMode, Option.some.injEq, reduceCtorEq] at ho <;> subst ho
  case zp b =>
    obtain ⟨h1, rfl⟩ := hb.one
    obtain ⟨t, ht⟩ := run_tZpR op s h (peek_after_reads h1 _ _ rfl) rfl
    exact ⟨t, _, rfl, ht⟩
  case zpx b =>
    obtain ⟨h1, rfl⟩ := hb.one
    obtain ⟨t, ht⟩ := run_tZpiR regX op s h (peek_after_reads h1 _ _ rfl) rfl
    exact ⟨t, _, rfl, ht⟩
  case zpy b =>
    obtain ⟨h1, rfl⟩ := hb.one
    obtain ⟨t, ht⟩ := run_tZpiR regY op s h (peek_after_reads h1 _ _ rfl) rfl
    exact ⟨t, _, rfl, ht⟩
  case abs w =>
    obtain ⟨h1, hlo, h2, hhi⟩ := hb.two
    rw [word_succ] at h2 hhi
    obtain ⟨t, ht⟩ := run_tAbsR op s h ((peek_after_reads h1 _ _ rfl).trans hlo)
      ((peek_after_reads h2 _ _ rfl).trans hhi) rfl
    rw [mkWord_hi_lo] at ht
    exact ⟨t, _, rfl, ht⟩
  case abx w =>
    obtain ⟨h1, hlo, h2, hhi⟩ := hb.two
    rw [word_succ] at h2 hhi
    rw [leadAccesses_abx]
    cases hx : indexCarry (loByte w) s.regs.x
    · obtain ⟨t, ht⟩ := run_tAbiR_same regX op s h hx ((peek_after_reads h1 _ _ rfl).trans hlo)
        ((peek_after_reads h2 _ _ rfl).trans hhi)
        rfl
      rw [regX, indexed_same hx] at ht
      exact ⟨t, _, rfl, ht⟩
    · obtain ⟨t, ht⟩ := run_tAbiR_cross regX op s h hx ((peek_after_reads h1 _ _ rfl).trans hlo)
        ((peek_after_reads h2 _ _ rfl).trans hhi)
        rfl
      rw [regX, indexed_cross hx] at ht
      exact ⟨t, _, rfl, ht⟩
  case aby w =>
    obtain ⟨h1, hlo, h2, hhi⟩ := hb.two
    rw [word_succ] at h2 hhi
    rw [leadAccesses_aby]
    cases hx : indexCarry (loByte w) s.regs.y
    · obtain ⟨t, ht⟩ := run_tAbiR_same regY op s h hx ((peek_after_reads h1 _ _ rfl).trans hlo)
        ((peek_after_reads h2 _ _ rfl).trans hhi)
        rfl
      rw [regY, indexed_same hx] at ht
      exact ⟨t, _, rfl, ht⟩
    · obtain ⟨t, ht⟩ := run_tAbiR_cross regY op s h hx ((peek_after_reads h1 _ _ rfl).trans hlo)
        ((peek_after_reads h2 _ _ rfl).trans hhi)
        rfl
      rw [regY, indexed_cross hx] at ht
      exact ⟨t, _, rfl, ht⟩
  case izx p =>
    obtain ⟨h1, rfl⟩ := hb.one
    obtain ⟨t, ht⟩ := run_tIzxR op s h (peek_after_reads h1 _ _ rfl) (peek_after_reads hp.1 _ _ rfl)
      (peek_after_reads hp.2 _ _ rfl) rfl
    exact ⟨t, _, rfl, ht⟩
  case izy p =>
    obtain ⟨h1, rfl⟩ := hb.one
    rw [leadAccesses_izy]
    have hlo := peek_after_reads hp.1 [.read s.pc, .read (s.pc + 1)] 1 rfl
    have hhi := peek_after_reads hp.2 [.read s.pc, .read (s.pc + 1), .read (zeroPage (s.peek (s.pc + 1)))] 1 rfl
    rw [← loByte_zpWord] at hlo
    rw [← hiByte_zpWord] at hhi
    cases hx : indexCarry (loByte (s.zpWord (s.peek (s.pc + 1)))) s.regs.y
    · obtain ⟨t, ht⟩ := run_tIzyR_same op s h hx (peek_after_reads h1 _ _ rfl) hlo hhi
        rfl
      rw [indexed_same hx] at ht
      exact ⟨t, _, rfl, ht⟩
    · obtain ⟨t, ht⟩ := run_tIzyR_cross op s h hx (peek_after_reads h1 _ _ rfl) hlo hhi
        rfl
      rw [indexed_cross hx] at ht
      exact ⟨t, _, rfl, ht⟩

/-- What a read template does where the instruction, its pointer and its operand are plain memory. -/
theorem readTemplate_plain {m : MemMode} {o : Operand} (op : ReadOp) {s : State} (h : s.t = 0)
    (ho : memMode o = some m) (hb : BytesAt s (s.pc + 1) o.bytes) (hp : PointerPlain o s) (hd : DataPlain o s) :
    ∃ t ea, o.effAddr s = some ea ∧ run (readTemplate m op) s = .next t ∧
      Settled s t (op s.regs (s.peek ea)) (pcPast o s) s.pollAnswer ∧ t.nmiPending = s.nmiPending ∧
      t.bus = s.bus.after 1 (leadAccesses o s false ++ [.read ea]) := by
  obtain ⟨t, ea, hea, ht, hs, hn⟩ := readTemplate_bus op h ho hb hp
  rw [peek_after_reads (hd ea hea) _ _ (leadAccesses_isRead ..)] at hs
  exact ⟨t, ea, hea, ht, hs, hn⟩

/-! ## The write modes (R77, R80, R83, R86, R89, R92) -/

/-- What a write template does where the instruction and its pointer are plain memory. -/
theorem writeTemplate_plain {m : MemMode} {o : Operand} (op : WriteOp) {s : State} (h : s.t = 0)
    (ho : memMode o = some m) (hb : BytesAt s (s.pc + 1) o.bytes) (hp : PointerPlain o s) :
    ∃ t ea, o.effAddr s = some ea ∧ run (writeTemplate m op) s = .next t ∧
      Settled s t s.regs (pcPast o s) s.pollAnswer ∧ t.nmiPending = s.nmiPending ∧
      t.bus = s.bus.after 1 (leadAccesses o s true ++ [.write ea (op s.regs)]) := by
  cases o <;> simp only [memMode, Option.some.injEq, reduceCtorEq] at ho <;> subst ho
  case zp b =>
    obtain ⟨h1, rfl⟩ := hb.one
    obtain ⟨t, ht⟩ := run_tZpW op s h (peek_after_reads h1 _ _ rfl)
    exact ⟨t, _, rfl, ht⟩
  case zpx b =>
    obtain ⟨h1, rfl⟩ := hb.one
    obtain ⟨t, ht⟩ := run_tZpiW regX op s h (peek_after_reads h1 _ _ rfl)
    exact ⟨t, _, rfl, ht⟩
  case zpy b =>
    obtain ⟨h1, rfl⟩ := hb.one
    obtain ⟨t, ht⟩ := run_tZpiW regY op s h (peek_after_reads h1 _ _ rfl)
    exact ⟨t, _, rfl, ht⟩
  case abs w =>
    obtain ⟨h1, hlo, h2, hhi⟩ := hb.two
    rw [word_succ] at h2 hhi
    obtain ⟨t, ht⟩ := run_tAbsW op s h ((peek_after_reads h1 _ _ rfl).trans hlo)
      ((peek_after_reads h2 _ _ rfl).trans hhi)
    rw [mkWord_hi_lo] at ht
    exact ⟨t, _, rfl, ht⟩
  case abx w =>
    obtain ⟨h1, hlo, h2, hhi⟩ := hb.two
    rw [word_succ] at h2 hhi
    obtain ⟨t, ht⟩ := run_tAbiW regX op s h ((peek_after_reads h1 _ _ rfl).trans hlo)
      ((peek_after_reads h2 _ _ rfl).trans hhi)
    rw [regX, indexed_sum] at ht
    exact ⟨t, _, rfl, ht⟩
  case aby w =>
    obtain ⟨h1, hlo, h2, hhi⟩ := hb.two
    rw [word_succ] at h2 hhi
    obtain ⟨t, ht⟩ := run_tAbiW regY op s h ((peek_after_reads h1 _ _ rfl).trans hlo)
      ((peek_after_reads h2 _ _ rfl).trans hhi)
    rw [regY, indexed_sum] at ht
    exact ⟨t, _, rfl, ht⟩
  case izx p =>
    obtain ⟨h1, rfl⟩ := hb.one
    obtain ⟨t, ht⟩ := run_tIzxW op s h (peek_after_reads h1 _ _ rfl) (peek_after_reads hp.1 _ _ rfl)
      (peek_after_reads hp.2 _ _ rfl)
    exact ⟨t, _, rfl, ht⟩
  case izy p =>
    obtain ⟨h1, rfl⟩ := hb.one
    have hlo := peek_after_reads hp.1 [.read s.pc, .read (s.pc + 1)] 1 rfl
    have hhi := peek_after_reads hp.2 [.read s.pc, .read (s.pc + 1), .read (zeroPage (s.peek (s.pc + 1)))] 1 rfl
    rw [← loByte_zpWord] at hlo
    rw [← hiByte_zpWord] at hhi
    obtain ⟨t, ht⟩ := run_tIzyW op s h (peek_after_reads h1 _ _ rfl) hlo hhi
    rw [indexed_sum] at ht
    exact ⟨t, _, rfl, ht⟩

/-! ## The read-modify-write modes (R78, R81, R84, R87, R90, R93) -/

/-- What a read-modify-write template does where the instruction and its pointer are plain memory, whatever answers
the operand's read. -/
theorem rmwTemplate_bus {m : MemMode} {o : Operand} (op : RmwOp) {s : State} (h : s.t = 0)
    (ho : memMode o = some m) (hb : BytesAt s (s.pc + 1) o.bytes) (hp : PointerPlain o s) :
    ∃ t ea, o.effAddr s = some ea ∧ run (rmwTemplate m op) s = .next t ∧
      Settled s t (op s.regs (s.modifyByte o ea)).1 (pcPast o s)
        (State.pollAnswer { s with regs := (op s.regs (s.modifyByte o ea)).1 }) ∧
      t.nmiPending = s.nmiPending ∧
      t.bus = s.bus.after 1 (leadAccesses o s true ++
        [.read ea, .write ea (s.modifyByte o ea), .write ea (op s.regs (s.modifyByte o ea)).2]) := by
  cases o <;> simp only [memMode, Option.some.injEq, reduceCtorEq] at ho <;> subst ho
  case zp b =>
    obtain ⟨h1, rfl⟩ := hb.one
    obtain ⟨t, ht⟩ := run_tZpM op s h (peek_after_reads h1 _ _ rfl) rfl
    exact ⟨t, _, rfl, ht⟩
  case zpx b =>
    obtain ⟨h1, rfl⟩ := hb.one
    obtain ⟨t, ht⟩ := run_tZpiM regX op s h (peek_after_reads h1 _ _ rfl) rfl
    exact ⟨t, _, rfl, ht⟩
  case zpy b =>
    obtain ⟨h1, rfl⟩ := hb.one
    obtain ⟨t, ht⟩ := run_tZpiM regY op s h (peek_after_reads h1 _ _ rfl) rfl
    exact ⟨t, _, rfl, ht⟩
  case abs w =>
    obtain ⟨h1, hlo, h2, hhi⟩ := hb.two
    rw [word_succ] at h2 hhi
    obtain ⟨t, ht⟩ := run_tAbsM op s h ((peek_after_reads h1 _ _ rfl).trans hlo)
      ((peek_after_reads h2 _ _ rfl).trans hhi) rfl
    rw [mkWord_hi_lo] at ht
    exact ⟨t, _, rfl, ht⟩
  case abx w =>
    obtain ⟨h1, hlo, h2, hhi⟩ := hb.two
    rw [word_succ] at h2 hhi
    obtain ⟨t, ht⟩ := run_tAbiM regX op s h ((peek_after_reads h1 _ _ rfl).trans hlo)
      ((peek_after_reads h2 _ _ rfl).trans hhi)
      rfl
    rw [regX, indexed_sum] at ht
    exact ⟨t, _, rfl, ht⟩
  case aby w =>
    obtain ⟨h1, hlo, h2, hhi⟩ := hb.two
    rw [word_succ] at h2 hhi
    obtain ⟨t, ht⟩ := run_tAbiM regY op s h ((peek_after_reads h1 _ _ rfl).trans hlo)
      ((peek_after_reads h2 _ _ rfl).trans hhi)
      rfl
    rw [regY, indexed_sum] at ht
    exact ⟨t, _, rfl, ht⟩
  case izx p =>
    obtain ⟨h1, rfl⟩ := hb.one
    obtain ⟨t, ht⟩ := run_tIzxM op s h (peek_after_reads h1 _ _ rfl) (peek_after_reads hp.1 _ _ rfl)
      (peek_after_reads hp.2 _ _ rfl) rfl
    exact ⟨t, _, rfl, ht⟩
  case izy p =>
    obtain ⟨h1, rfl⟩ := hb.one
    have hlo := peek_after_reads hp.1 [.read s.pc, .read (s.pc + 1)] 1 rfl
    have hhi := peek_after_reads hp.2 [.read s.pc, .read (s.pc + 1), .read (zeroPage (s.peek (s.pc + 1)))] 1 rfl
    rw [← loByte_zpWord] at hlo
    rw [← hiByte_zpWord] at hhi
    obtain ⟨t, ht⟩ := run_tIzyM op s h (peek_after_reads h1 _ _ rfl) hlo hhi
      rfl
    rw [indexed_sum] at ht
    exact ⟨t, _, rfl, ht⟩

end Sys2Proof.Machine
end

