-- ==== Sys2Proof/Laws/Completes.lean ====
section
/-! SUPPORT. What an instruction of each template leaves, in the terms of Safety: one lemma per kind of
OperationSemantics, for any instruction whose meaning is that template. -/

namespace Sys2Proof.Machine

open Sys2Proof

/-- The bytes of a word operand and of a byte operand, by mode. -/
theorem pcPast_operand (i : Instr) (s : State) : pcPast i.operand s = s.pcAfter i := rfl

/-- A reading instruction with a memory operand. -/
theorem completes_read {i : Instr} {s : State} {m : MemMode} {op : ReadOp} (hm : memMode i.operand = some m)
    (he : exec i s = run (readTemplate m op) s) (hr : Ready i s) (hd : DataPlain i.operand s) :
    Completes i s (op s.regs (i.operand.value s)) (s.pcAfter i) s.peek := by
  obtain ⟨t, ea, hea, ht, hs, hn, hb⟩ := readTemplate_plain op hr.1 hm hr.operand hr.2.2.2 hd
  have hv : i.operand.value s = s.peek ea := by
    have hv' : i.operand.value s = (i.operand.effAddr s).elim 0 s.peek := by
      revert hm
      cases i.operand <;> simp [memMode, Operand.value]
    rw [hv', hea]
    rfl
  rw [hv]
  refine ⟨t, he.trans ht, hs, hn, memIs_reads ?_ hb⟩
  rw [List.all_append, leadAccesses_isRead]
  rfl

/-- A reading instruction with an immediate operand. -/
theorem completes_imm {i : Instr} {s : State} {b : Byte} {op : Config.Params → ReadOp} (ho : i.operand = .imm b)
    (he : exec i s = run (tImm op) s) (hr : Ready i s) :
    Completes i s (op s.params s.regs (i.operand.value s)) (s.pcAfter i) s.peek := by
  have hb := hr.operand
  rw [ho] at hb
  obtain ⟨h1, h2⟩ := hb.one
  obtain ⟨t, ht, hs, hn, hb⟩ := run_tImm op s hr.1 ((peek_after_reads h1 _ _ rfl).trans h2)
  have hv : i.operand.value s = b := by rw [ho]; rfl
  have hp : s.pcAfter i = s.pc + 2 := by rw [State.pcAfter, Instr.length, ho]; rfl
  rw [hv, hp]
  exact ⟨t, he.trans ht, hs, hn, memIs_reads rfl hb⟩

/-- A storing instruction with a memory operand. -/
theorem completes_write {i : Instr} {s : State} {a : Word} {m : MemMode} {op : WriteOp}
    (hm : memMode i.operand = some m) (he : exec i s = run (writeTemplate m op) s) (hr : Ready i s)
    (ha : i.operand.effAddr s = some a) :
    Completes i s s.regs (s.pcAfter i) (stored s s.peek a (op s.regs)) := by
  obtain ⟨t, ea, hea, ht, hs, hn, hb⟩ := writeTemplate_plain op hr.1 hm hr.operand hr.2.2.2
  obtain rfl : ea = a := Option.some.inj (hea.symm.trans ha)
  refine ⟨t, he.trans ht, hs, hn, ?_⟩
  have := memIs_after hr.2.1 hb
  rwa [storedBy_append, storedBy_reads _ _ _ (leadAccesses_isRead ..)] at this

/-- A read-modify-write instruction, whose operation leaves I alone, whatever answers its operand's read. -/
theorem completes_rmw {i : Instr} {s : State} {a : Word} {m : MemMode} {op : RmwOp}
    (hm : memMode i.operand = some m) (he : exec i s = run (rmwTemplate m op) s)
    (hI : ∀ r v, (op r v).1.i = r.i) (hr : Ready i s) (ha : i.operand.effAddr s = some a) :
    Completes i s (op s.regs (s.modifyByte i.operand a)).1 (s.pcAfter i)
      (stored s s.peek a (op s.regs (s.modifyByte i.operand a)).2) := by
  obtain ⟨t, ea, hea, ht, hs, hn, hb⟩ := rmwTemplate_bus op hr.1 hm hr.operand hr.2.2.2
  obtain rfl : ea = a := Option.some.inj (hea.symm.trans ha)
  have hl : ∀ v, State.pollAnswer { s with regs := (op s.regs v).1 } = s.pollAnswer := fun v => by
    simp [State.pollAnswer, State.irqPending, hI]
  rw [hl] at hs
  refine ⟨t, he.trans ht, hs, hn, ?_⟩
  have := memIs_after hr.2.1 hb
  rw [storedBy_append, storedBy_reads _ _ _ (leadAccesses_isRead ..)] at this
  simpa [storedBy, stored_stored] using this

/-- An implied or accumulator instruction. -/
theorem completes_imp {i : Instr} {s : State} {op : ImpOp} (he : exec i s = run (tImp op) s) (h : s.t = 0) :
    Completes i s (op s.regs) (s.pc + 1) s.peek := by
  obtain ⟨t, ht, hs, hn, hb⟩ := run_tImp op s h
  exact ⟨t, he.trans ht, hs, hn, memIs_reads rfl hb⟩

end Sys2Proof.Machine
end

