-- ==== Sys2Proof/Laws/Decode.lean ====
section
/-! SUPPORT. Small lemmas about the decoder, the encoder and well-formedness. -/

namespace Sys2Proof

/-- The opcode bytes of a well-formed JAM. -/
theorem Instr.wellFormed_jam {op : Byte} (h : (Instr.jam op).wellFormed = true) :
    op = 0x02 ∨ op = 0x12 ∨ op = 0x22 ∨ op = 0x32 ∨ op = 0x42 ∨ op = 0x52 ∨ op = 0x62 ∨ op = 0x72 ∨ op = 0x92 ∨ op = 0xB2 ∨ op = 0xD2 ∨ op = 0xF2 := by
  simp only [Instr.wellFormed, Instr.variantOk, Bool.and_eq_true, List.contains_eq_mem, decide_eq_true_eq, List.mem_cons,
    List.not_mem_nil, or_false] at h
  exact h.1

/-- The opcode bytes of a well-formed NOP zp. -/
theorem Instr.wellFormed_nopZp {op : Byte} {x : Byte} (h : (Instr.nopZp op x).wellFormed = true) :
    op = 0x04 ∨ op = 0x44 ∨ op = 0x64 := by
  simp only [Instr.wellFormed, Instr.variantOk, Bool.and_eq_true, List.contains_eq_mem, decide_eq_true_eq, List.mem_cons,
    List.not_mem_nil, or_false] at h
  exact h.1

/-- The opcode bytes of a well-formed ANC #. -/
theorem Instr.wellFormed_anc {op : Byte} {x : Byte} (h : (Instr.anc op x).wellFormed = true) :
    op = 0x0B ∨ op = 0x2B := by
  simp only [Instr.wellFormed, Instr.variantOk, Bool.and_eq_true, List.contains_eq_mem, decide_eq_true_eq, List.mem_cons,
    List.not_mem_nil, or_false] at h
  exact h.1

/-- The opcode bytes of a well-formed NOP zp,X. -/
theorem Instr.wellFormed_nopZpx {op : Byte} {x : Byte} (h : (Instr.nopZpx op x).wellFormed = true) :
    op = 0x14 ∨ op = 0x34 ∨ op = 0x54 ∨ op = 0x74 ∨ op = 0xD4 ∨ op = 0xF4 := by
  simp only [Instr.wellFormed, Instr.variantOk, Bool.and_eq_true, List.contains_eq_mem, decide_eq_true_eq, List.mem_cons,
    List.not_mem_nil, or_false] at h
  exact h.1

/-- The opcode bytes of a well-formed NOP. -/
theorem Instr.wellFormed_nopImp {op : Byte} (h : (Instr.nopImp op).wellFormed = true) :
    op = 0x1A ∨ op = 0x3A ∨ op = 0x5A ∨ op = 0x7A ∨ op = 0xDA ∨ op = 0xFA := by
  simp only [Instr.wellFormed, Instr.variantOk, Bool.and_eq_true, List.contains_eq_mem, decide_eq_true_eq, List.mem_cons,
    List.not_mem_nil, or_false] at h
  exact h.1

/-- The opcode bytes of a well-formed NOP abs,X. -/
theorem Instr.wellFormed_nopAbx {op : Byte} {x : Word} (h : (Instr.nopAbx op x).wellFormed = true) :
    op = 0x1C ∨ op = 0x3C ∨ op = 0x5C ∨ op = 0x7C ∨ op = 0xDC ∨ op = 0xFC := by
  simp only [Instr.wellFormed, Instr.variantOk, Bool.and_eq_true, List.contains_eq_mem, decide_eq_true_eq, List.mem_cons,
    List.not_mem_nil, or_false] at h
  exact h.1

/-- The opcode bytes of a well-formed NOP #. -/
theorem Instr.wellFormed_nopImm {op : Byte} {x : Byte} (h : (Instr.nopImm op x).wellFormed = true) :
    op = 0x80 ∨ op = 0x82 ∨ op = 0x89 ∨ op = 0xC2 ∨ op = 0xE2 := by
  simp only [Instr.wellFormed, Instr.variantOk, Bool.and_eq_true, List.contains_eq_mem, decide_eq_true_eq, List.mem_cons,
    List.not_mem_nil, or_false] at h
  exact h.1

end Sys2Proof
end

