-- ==== Sys2Proof/Laws/Flags.lean ====
section
/-! SUPPORT. What each flag computation gives, as an explicit record. -/

namespace Sys2Proof.Machine

open Sys2Proof

/-- `ADC(m)` (41_alu R109): V is set iff both operands share a sign and the result's differs. -/
theorem addWithCarry_eq (r : Regs) (m : Byte) :
    addWithCarry r m =
      { r with
        a := BitVec.ofNat 8 (r.a.toNat + m.toNat + r.c.toNat)
        n := (BitVec.ofNat 8 (r.a.toNat + m.toNat + r.c.toNat)).msb
        z := BitVec.ofNat 8 (r.a.toNat + m.toNat + r.c.toNat) == 0
        c := decide (255 < r.a.toNat + m.toNat + r.c.toNat)
        v := (r.a.msb == m.msb) && ((BitVec.ofNat 8 (r.a.toNat + m.toNat + r.c.toNat)).msb != r.a.msb) } := by
  simp only [addWithCarry, addSum, Regs.setNZ, BitVec.msb_eq_getLsbD_last]
  congr 1
  generalize BitVec.ofNat 8 (r.a.toNat + m.toNat + r.c.toNat) = res
  simp only [BitVec.getLsbD_and, BitVec.getLsbD_xor]
  cases r.a.getLsbD 7 <;> cases m.getLsbD 7 <;> cases res.getLsbD 7 <;> rfl

/-- `SBC(m)` (41_alu R110): the difference less the borrow; C is the inverted borrow. -/
theorem subWithBorrow_eq (r : Regs) (m : Byte) :
    subWithBorrow r m =
      { r with
        a := r.a - m - (if r.c then 0 else 1)
        n := (r.a - m - (if r.c then 0 else 1)).msb
        z := r.a - m - (if r.c then 0 else 1) == 0
        c := decide (m.toNat + (if r.c then (0 : Byte) else 1).toNat ≤ r.a.toNat)
        v := (r.a.msb != m.msb) && ((r.a - m - (if r.c then 0 else 1)).msb != r.a.msb) } := by
  have hx : m ^^^ 0xFF = ~~~m := by rw [BitVec.not_def, BitVec.xor_comm]; rfl
  have hm := m.isLt
  have ha := r.a.isLt
  have hs : BitVec.ofNat 8 (addSum r.a (~~~m) r.c) = r.a - m - (if r.c then 0 else 1) := by
    apply BitVec.eq_of_toNat_eq
    cases r.c <;> simp [addSum, BitVec.toNat_not, BitVec.toNat_sub] <;> omega
  have hc : decide (255 < addSum r.a (~~~m) r.c) =
      decide (m.toNat + (if r.c then (0 : Byte) else 1).toNat ≤ r.a.toNat) := by
    cases r.c <;> simp [addSum, BitVec.toNat_not] <;> omega
  simp only [subWithBorrow, addWithCarry, hx, hs, hc, Regs.setNZ, BitVec.msb_eq_getLsbD_last]
  congr 1
  generalize r.a - m - (if r.c then 0 else 1) = res
  simp only [BitVec.getLsbD_and, BitVec.getLsbD_xor, BitVec.getLsbD_not]
  cases r.a.getLsbD 7 <;> cases m.getLsbD 7 <;> cases res.getLsbD 7 <;> rfl

/-- `ShiftLSR(v)` (43_shift_incdec R132): N is always 0. -/
theorem shiftLsr_eq (r : Regs) (v : Byte) :
    shiftLsr r v = ({ r with c := v.getLsbD 0, n := false, z := v >>> 1 == 0 }, v >>> 1) := by
  have hn : ∀ v : Byte, (v >>> 1).getLsbD 7 = false := by decide
  simp only [shiftLsr, Regs.setNZ, hn]

/-- `RotROL(v)` (43_shift_incdec R133). -/
theorem rotRol_eq (r : Regs) (v : Byte) :
    rotRol r v =
      ({ r with
         c := v.getLsbD 7
         n := (v <<< 1 ||| (if r.c then 1 else 0)).msb
         z := v <<< 1 ||| (if r.c then 1 else 0) == 0 },
       v <<< 1 ||| (if r.c then 1 else 0)) := by
  cases h : r.c <;> simp only [rotRol, h] <;> rfl

/-- `RotROR(v)` (43_shift_incdec R134): N is the old C. -/
theorem rotRor_eq (r : Regs) (v : Byte) :
    rotRor r v =
      ({ r with c := v.getLsbD 0, n := r.c, z := v >>> 1 ||| (if r.c then 0x80 else 0) == 0 },
       v >>> 1 ||| (if r.c then 0x80 else 0)) := by
  have hn : ∀ v : Byte, (v >>> 1 ||| 0x80).getLsbD 7 = true ∧ (v >>> 1 ||| 0).getLsbD 7 = false := by decide
  have h1 : (BitVec.ofBool true).setWidth 8 <<< 7 = (0x80 : Byte) := rfl
  have h0 : (BitVec.ofBool false).setWidth 8 <<< 7 = (0 : Byte) := rfl
  cases h : r.c <;> simp only [rotRor, h, Regs.setNZ, h0, h1, (hn v).1, (hn v).2] <;> rfl

/-- Unpacking what was packed changes nothing (10_state R23, R24). -/
theorem unpack_pack (r : Regs) (b : Bool) : unpack r (pack r b) = r := by
  obtain ⟨a, x, y, s, n, v, d, i, z, c⟩ := r
  have h : ∀ n v b d i z c : Bool,
      let p := BitVec.ofBool n ++ BitVec.ofBool v ++ 1#1 ++ BitVec.ofBool b ++ BitVec.ofBool d ++ BitVec.ofBool i
        ++ BitVec.ofBool z ++ BitVec.ofBool c
      p.getLsbD 7 = n ∧ p.getLsbD 6 = v ∧ p.getLsbD 3 = d ∧ p.getLsbD 2 = i ∧ p.getLsbD 1 = z ∧ p.getLsbD 0 = c := by
    decide
  obtain ⟨h1, h2, h3, h4, h5, h6⟩ := h n v b d i z c
  simp only [unpack, pack, h1, h2, h3, h4, h5, h6]

end Sys2Proof.Machine
end

