-- ==== Sys2Proof/Laws/HostOps.lean ====
section
/-! SUPPORT. The host interface: the IRQ sources stay a set, held as a strictly rising list. -/

namespace Sys2Proof.Machine

open Sys2Proof

theorem rising_cons {x : Nat} {l : List Nat} : rising (x :: l) = true ↔ (∀ y ∈ l, x < y) ∧ rising l = true := by
  induction l generalizing x with
  | nil => simp [rising]
  | cons y l ih =>
    rw [rising, Bool.and_eq_true, decide_eq_true_eq, ih]
    constructor
    · rintro ⟨h, h1, h2⟩
      exact ⟨fun z hz => by cases hz with | head => exact h | tail _ hz => exact Nat.lt_trans h (h1 z hz), h1, h2⟩
    · rintro ⟨h, h1, h2⟩
      exact ⟨h y (List.mem_cons_self ..), h1, h2⟩

/-- After a request the named source is in the set, and no other is added or removed (60_exceptions R192). -/
theorem mem_addSource {l : List Nat} {src x : Nat} : x ∈ addSource l src ↔ x = src ∨ x ∈ l := by
  induction l with
  | nil => simp [addSource]
  | cons y l ih =>
    rw [addSource]
    split
    · simp
    · split
      · next h => subst h; simp
      · simp only [List.mem_cons, ih]; tauto

theorem rising_addSource {l : List Nat} (h : rising l = true) (src : Nat) : rising (addSource l src) = true := by
  induction l with
  | nil => rfl
  | cons y l ih =>
    rw [rising_cons] at h
    rw [addSource]
    split
    · next hlt =>
      rw [rising_cons, rising_cons]
      exact ⟨fun z hz => by cases hz with | head => exact hlt | tail _ hz => exact Nat.lt_trans hlt (h.1 z hz), h⟩
    · split
      · rw [rising_cons]; exact h
      · rw [rising_cons]
        refine ⟨fun z hz => ?_, ih h.2⟩
        obtain rfl | hz := mem_addSource.mp hz
        · omega
        · exact h.1 z hz

/-- A request of a source that already asserts changes nothing. -/
theorem addSource_of_mem {l : List Nat} (h : rising l = true) {src : Nat} (hm : src ∈ l) : addSource l src = l := by
  induction l with
  | nil => cases hm
  | cons y l ih =>
    rw [rising_cons] at h
    rw [addSource]
    obtain rfl | hm := List.mem_cons.mp hm
    · simp
    · have := h.1 src hm
      rw [if_neg (by omega), if_neg (by omega), ih h.2 hm]

/-- After an acknowledge the named source is gone, and no other is (60_exceptions R193). -/
theorem mem_removeSource {l : List Nat} {src x : Nat} : x ∈ removeSource l src ↔ x ≠ src ∧ x ∈ l := by
  simp [removeSource, and_comm]

theorem rising_removeSource {l : List Nat} (h : rising l = true) (src : Nat) : rising (removeSource l src) = true := by
  induction l with
  | nil => rfl
  | cons y l ih =>
    rw [rising_cons] at h
    rw [removeSource, List.filter_cons]
    split
    · rw [rising_cons]
      exact ⟨fun z hz => h.1 z (List.mem_of_mem_filter hz), ih h.2⟩
    · exact ih h.2

/-- An acknowledge of a source that does not assert changes nothing. -/
theorem removeSource_of_not_mem {l : List Nat} {src : Nat} (h : src ∉ l) : removeSource l src = l :=
  List.filter_eq_self.mpr fun x hx => by rw [bne_iff_ne]; rintro rfl; exact h hx

end Sys2Proof.Machine
end

