-- ==== Sys2Proof/Laws/Sequencer.lean ====
section
/-! SUPPORT. The sequencer: what a tick can do, and what no cycle of any template changes. -/

namespace Sys2Proof.Machine

open Sys2Proof

/-- Every meaning is the template of its OpcodeTable entry. -/
theorem exec_eq_run (i : Instr) (s : State) : exec i s = run (entryOf i).template s := by
  cases i <;> rfl

/-- The operand bytes do not choose the entry (30_encoding R62). -/
theorem entryOf_ofBytes (op b1 b2 : Byte) : entryOf (ofBytes op b1 b2) = entryAt op := by
  unfold entryAt ofBytes
  generalize op.toNat % 16 = col
  split <;> (simp only [mapRow0, mapRow1, mapRow2, mapRow3, mapRow4, mapRow5, mapRow6, mapRow7, mapRow8, mapRow9,
    mapRowA, mapRowB, mapRowC, mapRowD, mapRowE, mapRowF]; split <;> rfl)

/-- What a tick within a sequence does, when it answers a next state (R65). -/
theorem cycle_cases {T : Template} {s t : State} (h : cycle T s = .next t) :
    (T = .halt ∧ t = s) ∨
    ∃ poll ds d, T = .cycles poll ds ∧ ds[s.t.val - 1]? = some d ∧
      t = { d.run (if poll.polls s (d.last.holds s) then s.poll else s) with
            t := if d.last.holds s then 0 else s.t + 1 } := by
  cases T with
  | halt => exact .inl ⟨rfl, by injection h with h; exact h.symm⟩
  | cycles poll ds =>
    refine .inr ⟨poll, ds, ?_⟩
    simp only [cycle] at h
    split at h
    · cases h
    · next d hd => exact ⟨d, rfl, hd, by injection h with h; exact h.symm⟩

/-- A tick within a sequence answers a next state whenever the cycle exists. -/
theorem cycle_next {poll : PollRule} {ds : List Descr} {d : Descr} {s : State} (h : ds[s.t.val - 1]? = some d) :
    cycle (.cycles poll ds) s =
      .next { d.run (if poll.polls s (d.last.holds s) then s.poll else s) with
              t := if d.last.holds s then 0 else s.t + 1 } := by
  simp only [cycle, h]

/-- What the effect of a cycle leaves alone. -/
structure Tame (f : Byte → State → State) : Prop where
  bus     : ∀ v s, (f v s).bus = s.bus
  latch   : ∀ v s, (f v s).intRequested = s.intRequested
  params  : ∀ v s, (f v s).params = s.params
  opcode  : ∀ v s, (f v s).opcode = s.opcode
  synth   : ∀ v s, (f v s).synthetic = s.synthetic
  nmiLine : ∀ v s, (f v s).nmiLine = s.nmiLine
  sources : ∀ v s, (f v s).irqAsserted = s.irqAsserted
  pending : ∀ v s, (f v s).nmiPending = true → s.nmiPending = true

/-- The cycles after the first end with one that is always last, there are at most seven, and every effect is tame. -/
def Template.Proper : Template → Prop
  | .halt => True
  | .cycles _ ds => (∀ d ∈ ds, Tame d.effect) ∧ ds.length ≤ 7 ∧ ∃ d, ds.getLast? = some d ∧ d.last = .always

theorem tame_readUnlessCross (op : ReadOp) : Tame (readUnlessCross op).effect := by
  constructor <;> intro v s <;> simp only [readUnlessCross] <;> split <;> first | rfl | exact id

theorem tame_fixCycle : Tame fixCycle.effect := by
  constructor <;> intro v s <;> simp only [fixCycle, dummyAt, State.fixHigh] <;> split <;> first | rfl | exact id

theorem tame_pushStatus (v : State → Byte) : Tame (push v State.selectVector).effect := by
  constructor <;> intro _ s <;> by_cases h : s.nmiPending = true <;> simp [push, State.selectVector, State.decS, h]

theorem proper_read (m : MemMode) (op : ReadOp) : (readTemplate m op).Proper := by
  cases m <;> (
    refine ⟨?_, by show _ ≤ 7; simp, _, rfl, rfl⟩
    intro d hd
    simp only [List.mem_cons, List.not_mem_nil, or_false] at hd
    rcases hd with rfl | rfl | rfl | rfl | rfl | rfl <;>
      first
      | exact ⟨fun _ _ => rfl, fun _ _ => rfl, fun _ _ => rfl, fun _ _ => rfl, fun _ _ => rfl, fun _ _ => rfl,
          fun _ _ => rfl, fun _ _ => id⟩
      | exact tame_readUnlessCross op)
theorem proper_write (m : MemMode) (op : WriteOp) : (writeTemplate m op).Proper := by
  cases m <;> (
    refine ⟨?_, by show _ ≤ 7; simp, _, rfl, rfl⟩
    intro d hd
    simp only [List.mem_cons, List.not_mem_nil, or_false] at hd
    rcases hd with rfl | rfl | rfl | rfl | rfl | rfl <;>
      first
      | exact ⟨fun _ _ => rfl, fun _ _ => rfl, fun _ _ => rfl, fun _ _ => rfl, fun _ _ => rfl, fun _ _ => rfl,
          fun _ _ => rfl, fun _ _ => id⟩
      | exact tame_fixCycle)
theorem proper_rmw (m : MemMode) (op : RmwOp) : (rmwTemplate m op).Proper := by
  cases m <;> (
    refine ⟨?_, by show _ ≤ 7; simp [rmwCycles], _, rfl, rfl⟩
    intro d hd
    simp only [rmwCycles, List.mem_cons, List.not_mem_nil, or_false] at hd
    rcases hd with rfl | rfl | rfl | rfl | rfl | rfl | rfl | rfl <;>
      first
      | exact ⟨fun _ _ => rfl, fun _ _ => rfl, fun _ _ => rfl, fun _ _ => rfl, fun _ _ => rfl, fun _ _ => rfl,
          fun _ _ => rfl, fun _ _ => id⟩
      | exact tame_fixCycle)
theorem proper_tImp (op : ImpOp) : (tImp op).Proper := by
  refine ⟨?_, by show _ ≤ 7; simp, _, rfl, rfl⟩
  intro d hd
  simp only [List.mem_cons, List.not_mem_nil, or_false] at hd
  subst hd
  exact ⟨fun _ _ => rfl, fun _ _ => rfl, fun _ _ => rfl, fun _ _ => rfl, fun _ _ => rfl, fun _ _ => rfl,
    fun _ _ => rfl, fun _ _ => id⟩
theorem proper_tImm (op : Config.Params → ReadOp) : (tImm op).Proper := by
  refine ⟨?_, by show _ ≤ 7; simp, _, rfl, rfl⟩
  intro d hd
  simp only [List.mem_cons, List.not_mem_nil, or_false] at hd
  subst hd
  exact ⟨fun _ _ => rfl, fun _ _ => rfl, fun _ _ => rfl, fun _ _ => rfl, fun _ _ => rfl, fun _ _ => rfl,
    fun _ _ => rfl, fun _ _ => id⟩
theorem proper_tAbiW (ix : Regs → Byte) (r : WriteOp) (before : ImpOp) : (tAbiW ix (unstableStore r before)).Proper := by
  refine ⟨?_, by show _ ≤ 7; simp, _, rfl, rfl⟩
  intro d hd
  simp only [List.mem_cons, List.not_mem_nil, or_false] at hd
  rcases hd with rfl | rfl | rfl | rfl <;>
    first
    | exact ⟨fun _ _ => rfl, fun _ _ => rfl, fun _ _ => rfl, fun _ _ => rfl, fun _ _ => rfl, fun _ _ => rfl,
        fun _ _ => rfl, fun _ _ => id⟩
    | exact tame_fixCycle
theorem proper_tIzyW (r : WriteOp) (before : ImpOp) : (tIzyW (unstableStore r before)).Proper := by
  refine ⟨?_, by show _ ≤ 7; simp, _, rfl, rfl⟩
  intro d hd
  simp only [List.mem_cons, List.not_mem_nil, or_false] at hd
  rcases hd with rfl | rfl | rfl | rfl | rfl <;>
    first
    | exact ⟨fun _ _ => rfl, fun _ _ => rfl, fun _ _ => rfl, fun _ _ => rfl, fun _ _ => rfl, fun _ _ => rfl,
        fun _ _ => rfl, fun _ _ => id⟩
    | exact tame_fixCycle
theorem proper_tRel (cond : BranchCond) : (tRel cond).Proper := by
  refine ⟨?_, by show _ ≤ 7; simp, _, rfl, rfl⟩
  intro d hd
  simp only [List.mem_cons, List.not_mem_nil, or_false] at hd
  rcases hd with rfl | rfl | rfl <;>
    exact ⟨fun _ _ => rfl, fun _ _ => rfl, fun _ _ => rfl, fun _ _ => rfl, fun _ _ => rfl, fun _ _ => rfl,
      fun _ _ => rfl, fun _ _ => id⟩
theorem proper_tPush (v : WriteOp) : (tPush v).Proper := by
  refine ⟨?_, by show _ ≤ 7; simp, _, rfl, rfl⟩
  intro d hd
  simp only [List.mem_cons, List.not_mem_nil, or_false] at hd
  rcases hd with rfl | rfl <;>
    exact ⟨fun _ _ => rfl, fun _ _ => rfl, fun _ _ => rfl, fun _ _ => rfl, fun _ _ => rfl, fun _ _ => rfl,
      fun _ _ => rfl, fun _ _ => id⟩
theorem proper_tPull (op : ReadOp) : (tPull op).Proper := by
  refine ⟨?_, by show _ ≤ 7; simp, _, rfl, rfl⟩
  intro d hd
  simp only [List.mem_cons, List.not_mem_nil, or_false] at hd
  rcases hd with rfl | rfl | rfl <;>
    exact ⟨fun _ _ => rfl, fun _ _ => rfl, fun _ _ => rfl, fun _ _ => rfl, fun _ _ => rfl, fun _ _ => rfl,
      fun _ _ => rfl, fun _ _ => id⟩
theorem proper_tJmpAbs : (tJmpAbs).Proper := by
  refine ⟨?_, by show _ ≤ 7; simp, _, rfl, rfl⟩
  intro d hd
  simp only [List.mem_cons, List.not_mem_nil, or_false] at hd
  rcases hd with rfl | rfl <;>
    exact ⟨fun _ _ => rfl, fun _ _ => rfl, fun _ _ => rfl, fun _ _ => rfl, fun _ _ => rfl, fun _ _ => rfl,
      fun _ _ => rfl, fun _ _ => id⟩
theorem proper_tJmpInd : (tJmpInd).Proper := by
  refine ⟨?_, by show _ ≤ 7; simp, _, rfl, rfl⟩
  intro d hd
  simp only [List.mem_cons, List.not_mem_nil, or_false] at hd
  rcases hd with rfl | rfl | rfl | rfl <;>
    exact ⟨fun _ _ => rfl, fun _ _ => rfl, fun _ _ => rfl, fun _ _ => rfl, fun _ _ => rfl, fun _ _ => rfl,
      fun _ _ => rfl, fun _ _ => id⟩
theorem proper_tJsr : (tJsr).Proper := by
  refine ⟨?_, by show _ ≤ 7; simp, _, rfl, rfl⟩
  intro d hd
  simp only [List.mem_cons, List.not_mem_nil, or_false] at hd
  rcases hd with rfl | rfl | rfl | rfl | rfl <;>
    exact ⟨fun _ _ => rfl, fun _ _ => rfl, fun _ _ => rfl, fun _ _ => rfl, fun _ _ => rfl, fun _ _ => rfl,
      fun _ _ => rfl, fun _ _ => id⟩
theorem proper_tRts : (tRts).Proper := by
  refine ⟨?_, by show _ ≤ 7; simp, _, rfl, rfl⟩
  intro d hd
  simp only [List.mem_cons, List.not_mem_nil, or_false] at hd
  rcases hd with rfl | rfl | rfl | rfl | rfl <;>
    exact ⟨fun _ _ => rfl, fun _ _ => rfl, fun _ _ => rfl, fun _ _ => rfl, fun _ _ => rfl, fun _ _ => rfl,
      fun _ _ => rfl, fun _ _ => id⟩
theorem proper_tRti : (tRti).Proper := by
  refine ⟨?_, by show _ ≤ 7; simp, _, rfl, rfl⟩
  intro d hd
  simp only [List.mem_cons, List.not_mem_nil, or_false] at hd
  rcases hd with rfl | rfl | rfl | rfl | rfl <;>
    exact ⟨fun _ _ => rfl, fun _ _ => rfl, fun _ _ => rfl, fun _ _ => rfl, fun _ _ => rfl, fun _ _ => rfl,
      fun _ _ => rfl, fun _ _ => id⟩
theorem proper_tBrk : (tBrk).Proper := by
  refine ⟨?_, by show _ ≤ 7; simp, _, rfl, rfl⟩
  intro d hd
  simp only [List.mem_cons, List.not_mem_nil, or_false] at hd
  rcases hd with rfl | rfl | rfl | rfl | rfl | rfl <;>
    first
    | exact ⟨fun _ _ => rfl, fun _ _ => rfl, fun _ _ => rfl, fun _ _ => rfl, fun _ _ => rfl, fun _ _ => rfl,
        fun _ _ => rfl, fun _ _ => id⟩
    | exact tame_pushStatus _

/-- The template of every OpcodeTable entry is proper. -/
theorem entry_proper (i : Instr) : (entryOf i).template.Proper := by
  cases i <;>
    first
    | exact proper_read .zp _
    | exact proper_read .zpx _
    | exact proper_read .zpy _
    | exact proper_read .abs _
    | exact proper_read .abx _
    | exact proper_read .aby _
    | exact proper_read .izx _
    | exact proper_read .izy _
    | exact proper_rmw .zp _
    | exact proper_rmw .zpx _
    | exact proper_rmw .abs _
    | exact proper_rmw .abx _
    | exact proper_rmw .aby _
    | exact proper_rmw .izx _
    | exact proper_rmw .izy _
    | exact proper_write .zp _
    | exact proper_write .zpx _
    | exact proper_write .zpy _
    | exact proper_write .abs _
    | exact proper_write .abx _
    | exact proper_write .aby _
    | exact proper_write .izx _
    | exact proper_write .izy _
    | exact proper_tImp _
    | exact proper_tImm fun _ => _
    | exact proper_tImm opAne
    | exact proper_tImm opLxa
    | exact proper_tRel _
    | exact proper_tPush _
    | exact proper_tPull _
    | exact proper_tAbiW _ _ _
    | exact proper_tIzyW _ _
    | exact proper_tJmpAbs
    | exact proper_tJmpInd
    | exact proper_tJsr
    | exact proper_tRts
    | exact proper_tRti
    | exact proper_tBrk
    | exact trivial

/-- The active template of every state is proper. -/
theorem template_proper (s : State) : s.template.Proper := by
  unfold State.template
  split
  · exact proper_tBrk
  · exact entry_proper _

/-- Only JAM's template is the halt (R103). -/
theorem entry_halt (i : Instr) : (entryOf i).template = .halt ↔ i.mnemonic = .jam := by
  cases i <;> first | exact ⟨fun h => Template.noConfusion h, fun h => by cases h⟩ | exact ⟨fun _ => rfl, fun _ => rfl⟩

/-! ## What one cycle leaves alone -/

/-- What a tick within a sequence changes of the platform, the lines and the sequence: nothing but memory and the
trace. -/
structure Kept (s t : State) : Prop where
  params  : t.params = s.params
  opcode  : t.opcode = s.opcode
  synth   : t.synthetic = s.synthetic
  nmiLine : t.nmiLine = s.nmiLine
  sources : t.irqAsserted = s.irqAsserted
  regions : t.bus.regions = s.bus.regions
  pending : t.nmiPending = true → s.nmiPending = true
  wf      : s.bus.mem.wf = true → t.bus.mem.wf = true

theorem Kept.refl (s : State) : Kept s s := ⟨rfl, rfl, rfl, rfl, rfl, rfl, id, id⟩

theorem Kept.trans {s t u : State} (h : Kept s t) (k : Kept t u) : Kept s u :=
  ⟨k.1.trans h.1, k.2.trans h.2, k.3.trans h.3, k.4.trans h.4, k.5.trans h.5, k.6.trans h.6, h.7 ∘ k.7, k.8 ∘ h.8⟩

theorem Kept.template {s t : State} (h : Kept s t) : t.template = s.template := by
  rw [State.template, State.template, h.synth, h.opcode]

/-- The bus access, the PC increment and a tame effect. -/
theorem Descr.run_kept {d : Descr} (hd : Tame d.effect) (s : State) : Kept s (d.run s) := by
  unfold Descr.run
  split
  · split
    · exact ⟨hd.params .., hd.opcode .., hd.synth .., hd.nmiLine .., hd.sources .., by rw [hd.bus]; rfl, hd.pending _ _,
        fun h => by rw [hd.bus]; exact h⟩
    · exact ⟨hd.params .., hd.opcode .., hd.synth .., hd.nmiLine .., hd.sources .., by rw [hd.bus]; rfl, hd.pending _ _,
        fun h => by rw [hd.bus]; exact h⟩
  · exact ⟨hd.params .., hd.opcode .., hd.synth .., hd.nmiLine .., hd.sources .., by rw [hd.bus]; rfl, hd.pending _ _,
      fun h => by rw [hd.bus]; exact Bus.wf_memAfter h _ _⟩

/-- A cycle's access and effect leave the service latch alone; only a poll writes it (60_exceptions R197). -/
theorem Descr.run_latch {d : Descr} (hd : Tame d.effect) (s : State) : (d.run s).intRequested = s.intRequested := by
  unfold Descr.run
  split
  · split <;> exact hd.latch ..
  · exact hd.latch ..

/-- One cycle records one event, in the cycle it executes (20_memory R39). -/
theorem Descr.run_trace {d : Descr} (hd : Tame d.effect) (s : State) :
    ∃ e, (d.run s).bus.trace = e :: s.bus.trace ∧ (e.kind = .read ∨ e.kind = .write) ∧ e.cycle = s.t.val + 1 := by
  unfold Descr.run
  split
  · split <;> (rw [hd.bus]; exact ⟨_, rfl, .inl rfl, rfl⟩)
  · rw [hd.bus]; exact ⟨_, rfl, .inr rfl, rfl⟩

/-- A poll changes the service latch only. -/
theorem poll_kept (s : State) : Kept s s.poll := ⟨rfl, rfl, rfl, rfl, rfl, rfl, id, id⟩

/-- A tick within a proper sequence, when it answers a next state: the halt stays, or cycle `t + 1` runs, and the new
`t` is 0 exactly after a last cycle. -/
theorem cycle_proper {T : Template} (hT : T.Proper) {s t : State} (hs : s.t ≠ 0) (h : cycle T s = .next t) :
    (T = .halt ∧ t = s) ∨
    ∃ poll ds d, T = .cycles poll ds ∧ ds[s.t.val - 1]? = some d ∧ Tame d.effect ∧ Kept s t ∧
      t.intRequested = (if poll.polls s (d.last.holds s) then s.pollAnswer else s.intRequested) ∧
      (∃ e, t.bus.trace = e :: s.bus.trace ∧ (e.kind = .read ∨ e.kind = .write) ∧ e.cycle = s.t.val + 1) ∧
      (d.last.holds s = true → t.t = 0) ∧
      (d.last.holds s = false → t.t.val = s.t.val + 1 ∧ t.t.val ≤ ds.length) := by
  obtain ⟨rfl, rfl⟩ | ⟨poll, ds, d, rfl, hd, rfl⟩ := cycle_cases h
  · exact .inl ⟨rfl, rfl⟩
  obtain ⟨htame, hlen, e, hlast, he⟩ := hT
  have hdt := htame d (List.mem_of_getElem? hd)
  have hlt := (List.getElem?_eq_some_iff.mp hd).1
  have ht0 : s.t.val ≠ 0 := fun h => hs (Fin.ext h)
  refine .inr ⟨poll, ds, d, rfl, hd, hdt, ?_, ?_, ?_, ?_, ?_⟩
  · have hk : Kept s (if poll.polls s (d.last.holds s) then s.poll else s) := by
      split
      · exact poll_kept s
      · exact Kept.refl s
    have := hk.trans (Descr.run_kept hdt _)
    exact ⟨this.1, this.2, this.3, this.4, this.5, this.6, this.7, this.8⟩
  · show (d.run _).intRequested = _
    rw [Descr.run_latch hdt]
    split <;> rfl
  · obtain ⟨e, h1, h2, h3⟩ := Descr.run_trace hdt (if poll.polls s (d.last.holds s) then s.poll else s)
    refine ⟨e, ?_, h2, ?_⟩
    · refine Eq.trans h1 ?_
      split <;> rfl
    · rw [h3]
      split <;> rfl
  · intro hl
    simp [hl]
  · intro hl
    have hne : s.t.val - 1 ≠ ds.length - 1 := by
      intro heq
      rw [List.getLast?_eq_getElem?, ← heq, hd] at hlast
      obtain rfl := Option.some.inj hlast
      rw [he] at hl
      exact absurd hl (by simp [LastMark.holds])
    have hv : (s.t + 1).val = s.t.val + 1 := by
      rw [Fin.val_add_one_of_lt']
      omega
    constructor
    · simp [hl, hv]
    · simp [hl, hv]
      omega

/-- A cycle that exists answers a next state. -/
theorem cycle_exists {T : Template} {s : State} (h : T.hasCycle s.t.val = true) : ∃ t, cycle T s = .next t := by
  cases T with
  | halt => exact ⟨s, rfl⟩
  | cycles poll ds =>
    simp only [Template.hasCycle, Bool.and_eq_true, decide_eq_true_eq] at h
    have hd : ds[s.t.val - 1]? = some ds[s.t.val - 1] := List.getElem?_eq_getElem (by omega)
    exact ⟨_, cycle_next hd⟩

/-- The rest of a proper sequence ends between instructions. -/
theorem finish_ends {poll : PollRule} {ds : List Descr} (hT : (Template.cycles poll ds).Proper) : ∀ (n : Nat) (s : State),
    (s.t = 0 ∨ ((Template.cycles poll ds).hasCycle s.t.val = true ∧ ds.length + 1 ≤ n + s.t.val)) →
    ∃ t, finish (.cycles poll ds) n s = .next t ∧ t.t = 0 ∧ Kept s t := by
  intro n
  induction n with
  | zero =>
    rintro s (h0 | ⟨hc, hn⟩)
    · exact ⟨s, rfl, h0, Kept.refl s⟩
    · simp only [Template.hasCycle, Bool.and_eq_true, decide_eq_true_eq] at hc
      omega
  | succ n ih =>
    rintro s hs
    by_cases h0 : s.t = 0
    · exact ⟨s, by rw [finish, if_pos h0], h0, Kept.refl s⟩
    · obtain ⟨hc, hn⟩ := hs.resolve_left h0
      obtain ⟨t, ht⟩ := cycle_exists hc
      obtain ⟨hh, -⟩ | ⟨poll', ds', d, heq, -, -, hk, -, -, h1, h2⟩ := cycle_proper hT h0 ht
      · cases hh
      injection heq with _ hds
      subst hds
      rw [finish, if_neg h0, ht]
      obtain ⟨u, hu, hu0, hku⟩ := ih t (by
        cases hl : d.last.holds s
        · obtain ⟨h3, h4⟩ := h2 hl
          exact .inr ⟨by simp [Template.hasCycle]; omega, by omega⟩
        · exact .inl (h1 hl))
      exact ⟨u, hu, hu0, hk.trans hku⟩

end Sys2Proof.Machine
end

