-- ==== Sys2Proof/Laws/Kinds.lean ====
section
/-! SUPPORT. Every instruction by the template of its OpcodeTable entry (40_sequencer R68, R104), so that a claim over all
instructions is one case per template. -/

namespace Sys2Proof.Machine

open Sys2Proof

/-- The template of an instruction's entry; a read-modify-write operation never writes I. -/
inductive Kind (i : Instr) : Prop where
  | imp (op : ImpOp) (h : (entryOf i).template = tImp op) (hp : (entryOf i).pattern = .implied)
  | imm (op : Config.Params → ReadOp) (h : (entryOf i).template = tImm op) (hp : (entryOf i).pattern = .read)
      (ho : ∃ b, i.operand = .imm b)
  | read (m : MemMode) (op : ReadOp) (h : (entryOf i).template = readTemplate m op) (hp : (entryOf i).pattern = .read)
      (ho : memMode i.operand = some m)
  | write (m : MemMode) (op : WriteOp) (h : (entryOf i).template = writeTemplate m op)
      (hp : (entryOf i).pattern = .write) (ho : memMode i.operand = some m)
  | rmw (m : MemMode) (op : RmwOp) (h : (entryOf i).template = rmwTemplate m op) (hp : (entryOf i).pattern = .rmw)
      (ho : memMode i.operand = some m) (hi : ∀ r v, (op r v).1.i = r.i)
  | unstableAbi (ix : Regs → Byte) (r : WriteOp) (before : ImpOp)
      (h : (entryOf i).template = tAbiW ix (unstableStore r before)) (hp : (entryOf i).pattern = .write)
  | unstableIzy (r : WriteOp) (before : ImpOp) (h : (entryOf i).template = tIzyW (unstableStore r before))
      (hp : (entryOf i).pattern = .write)
  | rel (cond : BranchCond) (h : (entryOf i).template = tRel cond) (hp : (entryOf i).pattern = .branch)
  | push (v : WriteOp) (h : (entryOf i).template = tPush v) (hp : (entryOf i).pattern = .bespoke)
  | pull (op : ReadOp) (h : (entryOf i).template = tPull op) (hp : (entryOf i).pattern = .bespoke)
  | jmpAbs (h : (entryOf i).template = tJmpAbs) (hp : (entryOf i).pattern = .bespoke)
  | jmpInd (h : (entryOf i).template = tJmpInd) (hp : (entryOf i).pattern = .bespoke)
  | jsr (h : (entryOf i).template = tJsr) (hp : (entryOf i).pattern = .bespoke)
  | rts (h : (entryOf i).template = tRts) (hp : (entryOf i).pattern = .bespoke)
  | rti (h : (entryOf i).template = tRti) (hp : (entryOf i).pattern = .bespoke) (hm : i.mnemonic = .rti)
  | brk (h : (entryOf i).template = tBrk) (hp : (entryOf i).pattern = .bespoke) (hm : i.mnemonic = .brk)
  | jam (h : (entryOf i).template = .halt) (hp : (entryOf i).pattern = .halt) (hm : i.mnemonic = .jam)

theorem kind (i : Instr) : Kind i :=
  match i with
  | .brk _ => .brk rfl rfl rfl
  | .oraIzx _ => .read .izx opOra rfl rfl rfl
  | .jam _ => .jam rfl rfl rfl
  | .sloIzx _ => .rmw .izx opSlo rfl rfl rfl fun _ _ => rfl
  | .nopZp _ _ => .read .zp opNopRead rfl rfl rfl
  | .oraZp _ => .read .zp opOra rfl rfl rfl
  | .aslZp _ => .rmw .zp opAsl rfl rfl rfl fun _ _ => rfl
  | .sloZp _ => .rmw .zp opSlo rfl rfl rfl fun _ _ => rfl
  | .php => .push opPhp rfl rfl
  | .oraImm _ => .imm (fun _ => opOra) rfl rfl ⟨_, rfl⟩
  | .aslAcc => .imp (onA opAsl) rfl rfl
  | .anc _ _ => .imm (fun _ => opAnc) rfl rfl ⟨_, rfl⟩
  | .nopAbs _ => .read .abs opNopRead rfl rfl rfl
  | .oraAbs _ => .read .abs opOra rfl rfl rfl
  | .aslAbs _ => .rmw .abs opAsl rfl rfl rfl fun _ _ => rfl
  | .sloAbs _ => .rmw .abs opSlo rfl rfl rfl fun _ _ => rfl
  | .bpl _ => .rel condBpl rfl rfl
  | .oraIzy _ => .read .izy opOra rfl rfl rfl
  | .sloIzy _ => .rmw .izy opSlo rfl rfl rfl fun _ _ => rfl
  | .nopZpx _ _ => .read .zpx opNopRead rfl rfl rfl
  | .oraZpx _ => .read .zpx opOra rfl rfl rfl
  | .aslZpx _ => .rmw .zpx opAsl rfl rfl rfl fun _ _ => rfl
  | .sloZpx _ => .rmw .zpx opSlo rfl rfl rfl fun _ _ => rfl
  | .clc => .imp opClc rfl rfl
  | .oraAby _ => .read .aby opOra rfl rfl rfl
  | .nopImp _ => .imp opNop rfl rfl
  | .sloAby _ => .rmw .aby opSlo rfl rfl rfl fun _ _ => rfl
  | .nopAbx _ _ => .read .abx opNopRead rfl rfl rfl
  | .oraAbx _ => .read .abx opOra rfl rfl rfl
  | .aslAbx _ => .rmw .abx opAsl rfl rfl rfl fun _ _ => rfl
  | .sloAbx _ => .rmw .abx opSlo rfl rfl rfl fun _ _ => rfl
  | .jsr _ => .jsr rfl rfl
  | .andIzx _ => .read .izx opAnd rfl rfl rfl
  | .rlaIzx _ => .rmw .izx opRla rfl rfl rfl fun _ _ => rfl
  | .bitZp _ => .read .zp opBit rfl rfl rfl
  | .andZp _ => .read .zp opAnd rfl rfl rfl
  | .rolZp _ => .rmw .zp opRol rfl rfl rfl fun _ _ => rfl
  | .rlaZp _ => .rmw .zp opRla rfl rfl rfl fun _ _ => rfl
  | .plp => .pull opPlp rfl rfl
  | .andImm _ => .imm (fun _ => opAnd) rfl rfl ⟨_, rfl⟩
  | .rolAcc => .imp (onA opRol) rfl rfl
  | .bitAbs _ => .read .abs opBit rfl rfl rfl
  | .andAbs _ => .read .abs opAnd rfl rfl rfl
  | .rolAbs _ => .rmw .abs opRol rfl rfl rfl fun _ _ => rfl
  | .rlaAbs _ => .rmw .abs opRla rfl rfl rfl fun _ _ => rfl
  | .bmi _ => .rel condBmi rfl rfl
  | .andIzy _ => .read .izy opAnd rfl rfl rfl
  | .rlaIzy _ => .rmw .izy opRla rfl rfl rfl fun _ _ => rfl
  | .andZpx _ => .read .zpx opAnd rfl rfl rfl
  | .rolZpx _ => .rmw .zpx opRol rfl rfl rfl fun _ _ => rfl
  | .rlaZpx _ => .rmw .zpx opRla rfl rfl rfl fun _ _ => rfl
  | .sec => .imp opSec rfl rfl
  | .andAby _ => .read .aby opAnd rfl rfl rfl
  | .rlaAby _ => .rmw .aby opRla rfl rfl rfl fun _ _ => rfl
  | .andAbx _ => .read .abx opAnd rfl rfl rfl
  | .rolAbx _ => .rmw .abx opRol rfl rfl rfl fun _ _ => rfl
  | .rlaAbx _ => .rmw .abx opRla rfl rfl rfl fun _ _ => rfl
  | .rti => .rti rfl rfl rfl
  | .eorIzx _ => .read .izx opEor rfl rfl rfl
  | .sreIzx _ => .rmw .izx opSre rfl rfl rfl fun _ _ => rfl
  | .eorZp _ => .read .zp opEor rfl rfl rfl
  | .lsrZp _ => .rmw .zp opLsr rfl rfl rfl fun _ _ => rfl
  | .sreZp _ => .rmw .zp opSre rfl rfl rfl fun _ _ => rfl
  | .pha => .push opPha rfl rfl
  | .eorImm _ => .imm (fun _ => opEor) rfl rfl ⟨_, rfl⟩
  | .lsrAcc => .imp (onA opLsr) rfl rfl
  | .alr _ => .imm (fun _ => opAlr) rfl rfl ⟨_, rfl⟩
  | .jmpAbs _ => .jmpAbs rfl rfl
  | .eorAbs _ => .read .abs opEor rfl rfl rfl
  | .lsrAbs _ => .rmw .abs opLsr rfl rfl rfl fun _ _ => rfl
  | .sreAbs _ => .rmw .abs opSre rfl rfl rfl fun _ _ => rfl
  | .bvc _ => .rel condBvc rfl rfl
  | .eorIzy _ => .read .izy opEor rfl rfl rfl
  | .sreIzy _ => .rmw .izy opSre rfl rfl rfl fun _ _ => rfl
  | .eorZpx _ => .read .zpx opEor rfl rfl rfl
  | .lsrZpx _ => .rmw .zpx opLsr rfl rfl rfl fun _ _ => rfl
  | .sreZpx _ => .rmw .zpx opSre rfl rfl rfl fun _ _ => rfl
  | .cli => .imp opCli rfl rfl
  | .eorAby _ => .read .aby opEor rfl rfl rfl
  | .sreAby _ => .rmw .aby opSre rfl rfl rfl fun _ _ => rfl
  | .eorAbx _ => .read .abx opEor rfl rfl rfl
  | .lsrAbx _ => .rmw .abx opLsr rfl rfl rfl fun _ _ => rfl
  | .sreAbx _ => .rmw .abx opSre rfl rfl rfl fun _ _ => rfl
  | .rts => .rts rfl rfl
  | .adcIzx _ => .read .izx opAdc rfl rfl rfl
  | .rraIzx _ => .rmw .izx opRra rfl rfl rfl fun _ _ => rfl
  | .adcZp _ => .read .zp opAdc rfl rfl rfl
  | .rorZp _ => .rmw .zp opRor rfl rfl rfl fun _ _ => rfl
  | .rraZp _ => .rmw .zp opRra rfl rfl rfl fun _ _ => rfl
  | .pla => .pull opPla rfl rfl
  | .adcImm _ => .imm (fun _ => opAdc) rfl rfl ⟨_, rfl⟩
  | .rorAcc => .imp (onA opRor) rfl rfl
  | .arr _ => .imm (fun _ => opArr) rfl rfl ⟨_, rfl⟩
  | .jmpInd _ => .jmpInd rfl rfl
  | .adcAbs _ => .read .abs opAdc rfl rfl rfl
  | .rorAbs _ => .rmw .abs opRor rfl rfl rfl fun _ _ => rfl
  | .rraAbs _ => .rmw .abs opRra rfl rfl rfl fun _ _ => rfl
  | .bvs _ => .rel condBvs rfl rfl
  | .adcIzy _ => .read .izy opAdc rfl rfl rfl
  | .rraIzy _ => .rmw .izy opRra rfl rfl rfl fun _ _ => rfl
  | .adcZpx _ => .read .zpx opAdc rfl rfl rfl
  | .rorZpx _ => .rmw .zpx opRor rfl rfl rfl fun _ _ => rfl
  | .rraZpx _ => .rmw .zpx opRra rfl rfl rfl fun _ _ => rfl
  | .sei => .imp opSei rfl rfl
  | .adcAby _ => .read .aby opAdc rfl rfl rfl
  | .rraAby _ => .rmw .aby opRra rfl rfl rfl fun _ _ => rfl
  | .adcAbx _ => .read .abx opAdc rfl rfl rfl
  | .rorAbx _ => .rmw .abx opRor rfl rfl rfl fun _ _ => rfl
  | .rraAbx _ => .rmw .abx opRra rfl rfl rfl fun _ _ => rfl
  | .nopImm _ _ => .imm (fun _ => opNopRead) rfl rfl ⟨_, rfl⟩
  | .staIzx _ => .write .izx opSta rfl rfl rfl
  | .saxIzx _ => .write .izx opSax rfl rfl rfl
  | .styZp _ => .write .zp opSty rfl rfl rfl
  | .staZp _ => .write .zp opSta rfl rfl rfl
  | .stxZp _ => .write .zp opStx rfl rfl rfl
  | .saxZp _ => .write .zp opSax rfl rfl rfl
  | .dey => .imp opDey rfl rfl
  | .txa => .imp opTxa rfl rfl
  | .ane _ => .imm opAne rfl rfl ⟨_, rfl⟩
  | .styAbs _ => .write .abs opSty rfl rfl rfl
  | .staAbs _ => .write .abs opSta rfl rfl rfl
  | .stxAbs _ => .write .abs opStx rfl rfl rfl
  | .saxAbs _ => .write .abs opSax rfl rfl rfl
  | .bcc _ => .rel condBcc rfl rfl
  | .staIzy _ => .write .izy opSta rfl rfl rfl
  | .shaIzy _ => .unstableIzy opSha id rfl rfl
  | .styZpx _ => .write .zpx opSty rfl rfl rfl
  | .staZpx _ => .write .zpx opSta rfl rfl rfl
  | .stxZpy _ => .write .zpy opStx rfl rfl rfl
  | .saxZpy _ => .write .zpy opSax rfl rfl rfl
  | .tya => .imp opTya rfl rfl
  | .staAby _ => .write .aby opSta rfl rfl rfl
  | .txs => .imp opTxs rfl rfl
  | .tas _ => .unstableAbi regY opTas tasSetS rfl rfl
  | .shy _ => .unstableAbi regX opShy id rfl rfl
  | .staAbx _ => .write .abx opSta rfl rfl rfl
  | .shx _ => .unstableAbi regY opShx id rfl rfl
  | .shaAby _ => .unstableAbi regY opSha id rfl rfl
  | .ldyImm _ => .imm (fun _ => opLdy) rfl rfl ⟨_, rfl⟩
  | .ldaIzx _ => .read .izx opLda rfl rfl rfl
  | .ldxImm _ => .imm (fun _ => opLdx) rfl rfl ⟨_, rfl⟩
  | .laxIzx _ => .read .izx opLax rfl rfl rfl
  | .ldyZp _ => .read .zp opLdy rfl rfl rfl
  | .ldaZp _ => .read .zp opLda rfl rfl rfl
  | .ldxZp _ => .read .zp opLdx rfl rfl rfl
  | .laxZp _ => .read .zp opLax rfl rfl rfl
  | .tay => .imp opTay rfl rfl
  | .ldaImm _ => .imm (fun _ => opLda) rfl rfl ⟨_, rfl⟩
  | .tax => .imp opTax rfl rfl
  | .lxa _ => .imm opLxa rfl rfl ⟨_, rfl⟩
  | .ldyAbs _ => .read .abs opLdy rfl rfl rfl
  | .ldaAbs _ => .read .abs opLda rfl rfl rfl
  | .ldxAbs _ => .read .abs opLdx rfl rfl rfl
  | .laxAbs _ => .read .abs opLax rfl rfl rfl
  | .bcs _ => .rel condBcs rfl rfl
  | .ldaIzy _ => .read .izy opLda rfl rfl rfl
  | .laxIzy _ => .read .izy opLax rfl rfl rfl
  | .ldyZpx _ => .read .zpx opLdy rfl rfl rfl
  | .ldaZpx _ => .read .zpx opLda rfl rfl rfl
  | .ldxZpy _ => .read .zpy opLdx rfl rfl rfl
  | .laxZpy _ => .read .zpy opLax rfl rfl rfl
  | .clv => .imp opClv rfl rfl
  | .ldaAby _ => .read .aby opLda rfl rfl rfl
  | .tsx => .imp opTsx rfl rfl
  | .las _ => .read .aby opLas rfl rfl rfl
  | .ldyAbx _ => .read .abx opLdy rfl rfl rfl
  | .ldaAbx _ => .read .abx opLda rfl rfl rfl
  | .ldxAby _ => .read .aby opLdx rfl rfl rfl
  | .laxAby _ => .read .aby opLax rfl rfl rfl
  | .cpyImm _ => .imm (fun _ => opCpy) rfl rfl ⟨_, rfl⟩
  | .cmpIzx _ => .read .izx opCmp rfl rfl rfl
  | .dcpIzx _ => .rmw .izx opDcp rfl rfl rfl fun _ _ => rfl
  | .cpyZp _ => .read .zp opCpy rfl rfl rfl
  | .cmpZp _ => .read .zp opCmp rfl rfl rfl
  | .decZp _ => .rmw .zp opDec rfl rfl rfl fun _ _ => rfl
  | .dcpZp _ => .rmw .zp opDcp rfl rfl rfl fun _ _ => rfl
  | .iny => .imp opIny rfl rfl
  | .cmpImm _ => .imm (fun _ => opCmp) rfl rfl ⟨_, rfl⟩
  | .dex => .imp opDex rfl rfl
  | .sbx _ => .imm (fun _ => opSbx) rfl rfl ⟨_, rfl⟩
  | .cpyAbs _ => .read .abs opCpy rfl rfl rfl
  | .cmpAbs _ => .read .abs opCmp rfl rfl rfl
  | .decAbs _ => .rmw .abs opDec rfl rfl rfl fun _ _ => rfl
  | .dcpAbs _ => .rmw .abs opDcp rfl rfl rfl fun _ _ => rfl
  | .bne _ => .rel condBne rfl rfl
  | .cmpIzy _ => .read .izy opCmp rfl rfl rfl
  | .dcpIzy _ => .rmw .izy opDcp rfl rfl rfl fun _ _ => rfl
  | .cmpZpx _ => .read .zpx opCmp rfl rfl rfl
  | .decZpx _ => .rmw .zpx opDec rfl rfl rfl fun _ _ => rfl
  | .dcpZpx _ => .rmw .zpx opDcp rfl rfl rfl fun _ _ => rfl
  | .cld => .imp opCld rfl rfl
  | .cmpAby _ => .read .aby opCmp rfl rfl rfl
  | .dcpAby _ => .rmw .aby opDcp rfl rfl rfl fun _ _ => rfl
  | .cmpAbx _ => .read .abx opCmp rfl rfl rfl
  | .decAbx _ => .rmw .abx opDec rfl rfl rfl fun _ _ => rfl
  | .dcpAbx _ => .rmw .abx opDcp rfl rfl rfl fun _ _ => rfl
  | .cpxImm _ => .imm (fun _ => opCpx) rfl rfl ⟨_, rfl⟩
  | .sbcIzx _ => .read .izx opSbc rfl rfl rfl
  | .iscIzx _ => .rmw .izx opIsc rfl rfl rfl fun _ _ => rfl
  | .cpxZp _ => .read .zp opCpx rfl rfl rfl
  | .sbcZp _ => .read .zp opSbc rfl rfl rfl
  | .incZp _ => .rmw .zp opInc rfl rfl rfl fun _ _ => rfl
  | .iscZp _ => .rmw .zp opIsc rfl rfl rfl fun _ _ => rfl
  | .inx => .imp opInx rfl rfl
  | .sbcImm _ => .imm (fun _ => opSbc) rfl rfl ⟨_, rfl⟩
  | .nop => .imp opNop rfl rfl
  | .usbc _ => .imm (fun _ => opUsbc) rfl rfl ⟨_, rfl⟩
  | .cpxAbs _ => .read .abs opCpx rfl rfl rfl
  | .sbcAbs _ => .read .abs opSbc rfl rfl rfl
  | .incAbs _ => .rmw .abs opInc rfl rfl rfl fun _ _ => rfl
  | .iscAbs _ => .rmw .abs opIsc rfl rfl rfl fun _ _ => rfl
  | .beq _ => .rel condBeq rfl rfl
  | .sbcIzy _ => .read .izy opSbc rfl rfl rfl
  | .iscIzy _ => .rmw .izy opIsc rfl rfl rfl fun _ _ => rfl
  | .sbcZpx _ => .read .zpx opSbc rfl rfl rfl
  | .incZpx _ => .rmw .zpx opInc rfl rfl rfl fun _ _ => rfl
  | .iscZpx _ => .rmw .zpx opIsc rfl rfl rfl fun _ _ => rfl
  | .sed => .imp opSed rfl rfl
  | .sbcAby _ => .read .aby opSbc rfl rfl rfl
  | .iscAby _ => .rmw .aby opIsc rfl rfl rfl fun _ _ => rfl
  | .sbcAbx _ => .read .abx opSbc rfl rfl rfl
  | .incAbx _ => .rmw .abx opInc rfl rfl rfl fun _ _ => rfl
  | .iscAbx _ => .rmw .abx opIsc rfl rfl rfl fun _ _ => rfl

end Sys2Proof.Machine
end

