-- ==== Sys2Proof/Laws/PerInstr.lean ====
section
/-! SUPPORT. The per-instruction family `TableAgrees`: the syntax, the encoder and the OpcodeTable say the same of
each instruction. -/

namespace Sys2Proof.Laws.TableAgrees

open Sys2Proof Sys2Proof.Machine

/-- A well-formed instruction's opcode leads to its own entry, which names its mnemonic and mode and counts as many bytes
as the encoding has (40_sequencer R104, R106) and which passes the construction check (R107). -/
def Statement (i : Instr) : Prop :=
  i.wellFormed = true → entryAt i.opcode = entryOf i ∧ (entryOf i).mnemonic = i.mnemonic ∧
    (entryOf i).mode = i.operand.mode ∧ (encode i).length = (entryOf i).bytes ∧ (entryOf i).wellFormed = true

theorem brk (x : Byte) : Statement (.brk x) := fun _ => ⟨(rfl : entryAt 0x00 = entryBrk), rfl, rfl, rfl, rfl⟩
theorem oraIzx (x : Byte) : Statement (.oraIzx x) := fun _ => ⟨(rfl : entryAt 0x01 = entryOraIzx), rfl, rfl, rfl, rfl⟩
theorem jam (op : Byte) : Statement (.jam op) := by
  intro h
  obtain rfl | rfl | rfl | rfl | rfl | rfl | rfl | rfl | rfl | rfl | rfl | rfl := Instr.wellFormed_jam h 
  all_goals exact ⟨by simp only [Instr.opcode]; exact Eq.trans (b := entryJam) rfl rfl, rfl, rfl, rfl, rfl⟩
theorem sloIzx (x : Byte) : Statement (.sloIzx x) := fun _ => ⟨(rfl : entryAt 0x03 = entrySloIzx), rfl, rfl, rfl, rfl⟩
theorem nopZp (op : Byte) (x : Byte) : Statement (.nopZp op x) := by
  intro h
  obtain rfl | rfl | rfl := Instr.wellFormed_nopZp h 
  all_goals exact ⟨by simp only [Instr.opcode]; exact Eq.trans (b := entryNopZp) rfl rfl, rfl, rfl, rfl, rfl⟩
theorem oraZp (x : Byte) : Statement (.oraZp x) := fun _ => ⟨(rfl : entryAt 0x05 = entryOraZp), rfl, rfl, rfl, rfl⟩
theorem aslZp (x : Byte) : Statement (.aslZp x) := fun _ => ⟨(rfl : entryAt 0x06 = entryAslZp), rfl, rfl, rfl, rfl⟩
theorem sloZp (x : Byte) : Statement (.sloZp x) := fun _ => ⟨(rfl : entryAt 0x07 = entrySloZp), rfl, rfl, rfl, rfl⟩
theorem php : Statement (.php) := fun _ => ⟨(rfl : entryAt 0x08 = entryPhp), rfl, rfl, rfl, rfl⟩
theorem oraImm (x : Byte) : Statement (.oraImm x) := fun _ => ⟨(rfl : entryAt 0x09 = entryOraImm), rfl, rfl, rfl, rfl⟩
theorem aslAcc : Statement (.aslAcc) := fun _ => ⟨(rfl : entryAt 0x0A = entryAslAcc), rfl, rfl, rfl, rfl⟩
theorem anc (op : Byte) (x : Byte) : Statement (.anc op x) := by
  intro h
  obtain rfl | rfl := Instr.wellFormed_anc h 
  all_goals exact ⟨by simp only [Instr.opcode]; exact Eq.trans (b := entryAnc) rfl rfl, rfl, rfl, rfl, rfl⟩
theorem nopAbs (x : Word) : Statement (.nopAbs x) := fun _ => ⟨(rfl : entryAt 0x0C = entryNopAbs), rfl, rfl, rfl, rfl⟩
theorem oraAbs (x : Word) : Statement (.oraAbs x) := fun _ => ⟨(rfl : entryAt 0x0D = entryOraAbs), rfl, rfl, rfl, rfl⟩
theorem aslAbs (x : Word) : Statement (.aslAbs x) := fun _ => ⟨(rfl : entryAt 0x0E = entryAslAbs), rfl, rfl, rfl, rfl⟩
theorem sloAbs (x : Word) : Statement (.sloAbs x) := fun _ => ⟨(rfl : entryAt 0x0F = entrySloAbs), rfl, rfl, rfl, rfl⟩
theorem bpl (x : Byte) : Statement (.bpl x) := fun _ => ⟨(rfl : entryAt 0x10 = entryBpl), rfl, rfl, rfl, rfl⟩
theorem oraIzy (x : Byte) : Statement (.oraIzy x) := fun _ => ⟨(rfl : entryAt 0x11 = entryOraIzy), rfl, rfl, rfl, rfl⟩
theorem sloIzy (x : Byte) : Statement (.sloIzy x) := fun _ => ⟨(rfl : entryAt 0x13 = entrySloIzy), rfl, rfl, rfl, rfl⟩
theorem nopZpx (op : Byte) (x : Byte) : Statement (.nopZpx op x) := by
  intro h
  obtain rfl | rfl | rfl | rfl | rfl | rfl := Instr.wellFormed_nopZpx h 
  all_goals exact ⟨by simp only [Instr.opcode]; exact Eq.trans (b := entryNopZpx) rfl rfl, rfl, rfl, rfl, rfl⟩
theorem oraZpx (x : Byte) : Statement (.oraZpx x) := fun _ => ⟨(rfl : entryAt 0x15 = entryOraZpx), rfl, rfl, rfl, rfl⟩
theorem aslZpx (x : Byte) : Statement (.aslZpx x) := fun _ => ⟨(rfl : entryAt 0x16 = entryAslZpx), rfl, rfl, rfl, rfl⟩
theorem sloZpx (x : Byte) : Statement (.sloZpx x) := fun _ => ⟨(rfl : entryAt 0x17 = entrySloZpx), rfl, rfl, rfl, rfl⟩
theorem clc : Statement (.clc) := fun _ => ⟨(rfl : entryAt 0x18 = entryClc), rfl, rfl, rfl, rfl⟩
theorem oraAby (x : Word) : Statement (.oraAby x) := fun _ => ⟨(rfl : entryAt 0x19 = entryOraAby), rfl, rfl, rfl, rfl⟩
theorem nopImp (op : Byte) : Statement (.nopImp op) := by
  intro h
  obtain rfl | rfl | rfl | rfl | rfl | rfl := Instr.wellFormed_nopImp h 
  all_goals exact ⟨by simp only [Instr.opcode]; exact Eq.trans (b := entryNopImp) rfl rfl, rfl, rfl, rfl, rfl⟩
theorem sloAby (x : Word) : Statement (.sloAby x) := fun _ => ⟨(rfl : entryAt 0x1B = entrySloAby), rfl, rfl, rfl, rfl⟩
theorem nopAbx (op : Byte) (x : Word) : Statement (.nopAbx op x) := by
  intro h
  obtain rfl | rfl | rfl | rfl | rfl | rfl := Instr.wellFormed_nopAbx h 
  all_goals exact ⟨by simp only [Instr.opcode]; exact Eq.trans (b := entryNopAbx) rfl rfl, rfl, rfl, rfl, rfl⟩
theorem oraAbx (x : Word) : Statement (.oraAbx x) := fun _ => ⟨(rfl : entryAt 0x1D = entryOraAbx), rfl, rfl, rfl, rfl⟩
theorem aslAbx (x : Word) : Statement (.aslAbx x) := fun _ => ⟨(rfl : entryAt 0x1E = entryAslAbx), rfl, rfl, rfl, rfl⟩
theorem sloAbx (x : Word) : Statement (.sloAbx x) := fun _ => ⟨(rfl : entryAt 0x1F = entrySloAbx), rfl, rfl, rfl, rfl⟩
theorem jsr (x : Word) : Statement (.jsr x) := fun _ => ⟨(rfl : entryAt 0x20 = entryJsr), rfl, rfl, rfl, rfl⟩
theorem andIzx (x : Byte) : Statement (.andIzx x) := fun _ => ⟨(rfl : entryAt 0x21 = entryAndIzx), rfl, rfl, rfl, rfl⟩
theorem rlaIzx (x : Byte) : Statement (.rlaIzx x) := fun _ => ⟨(rfl : entryAt 0x23 = entryRlaIzx), rfl, rfl, rfl, rfl⟩
theorem bitZp (x : Byte) : Statement (.bitZp x) := fun _ => ⟨(rfl : entryAt 0x24 = entryBitZp), rfl, rfl, rfl, rfl⟩
theorem andZp (x : Byte) : Statement (.andZp x) := fun _ => ⟨(rfl : entryAt 0x25 = entryAndZp), rfl, rfl, rfl, rfl⟩
theorem rolZp (x : Byte) : Statement (.rolZp x) := fun _ => ⟨(rfl : entryAt 0x26 = entryRolZp), rfl, rfl, rfl, rfl⟩
theorem rlaZp (x : Byte) : Statement (.rlaZp x) := fun _ => ⟨(rfl : entryAt 0x27 = entryRlaZp), rfl, rfl, rfl, rfl⟩
theorem plp : Statement (.plp) := fun _ => ⟨(rfl : entryAt 0x28 = entryPlp), rfl, rfl, rfl, rfl⟩
theorem andImm (x : Byte) : Statement (.andImm x) := fun _ => ⟨(rfl : entryAt 0x29 = entryAndImm), rfl, rfl, rfl, rfl⟩
theorem rolAcc : Statement (.rolAcc) := fun _ => ⟨(rfl : entryAt 0x2A = entryRolAcc), rfl, rfl, rfl, rfl⟩
theorem bitAbs (x : Word) : Statement (.bitAbs x) := fun _ => ⟨(rfl : entryAt 0x2C = entryBitAbs), rfl, rfl, rfl, rfl⟩
theorem andAbs (x : Word) : Statement (.andAbs x) := fun _ => ⟨(rfl : entryAt 0x2D = entryAndAbs), rfl, rfl, rfl, rfl⟩
theorem rolAbs (x : Word) : Statement (.rolAbs x) := fun _ => ⟨(rfl : entryAt 0x2E = entryRolAbs), rfl, rfl, rfl, rfl⟩
theorem rlaAbs (x : Word) : Statement (.rlaAbs x) := fun _ => ⟨(rfl : entryAt 0x2F = entryRlaAbs), rfl, rfl, rfl, rfl⟩
theorem bmi (x : Byte) : Statement (.bmi x) := fun _ => ⟨(rfl : entryAt 0x30 = entryBmi), rfl, rfl, rfl, rfl⟩
theorem andIzy (x : Byte) : Statement (.andIzy x) := fun _ => ⟨(rfl : entryAt 0x31 = entryAndIzy), rfl, rfl, rfl, rfl⟩
theorem rlaIzy (x : Byte) : Statement (.rlaIzy x) := fun _ => ⟨(rfl : entryAt 0x33 = entryRlaIzy), rfl, rfl, rfl, rfl⟩
theorem andZpx (x : Byte) : Statement (.andZpx x) := fun _ => ⟨(rfl : entryAt 0x35 = entryAndZpx), rfl, rfl, rfl, rfl⟩
theorem rolZpx (x : Byte) : Statement (.rolZpx x) := fun _ => ⟨(rfl : entryAt 0x36 = entryRolZpx), rfl, rfl, rfl, rfl⟩
theorem rlaZpx (x : Byte) : Statement (.rlaZpx x) := fun _ => ⟨(rfl : entryAt 0x37 = entryRlaZpx), rfl, rfl, rfl, rfl⟩
theorem sec : Statement (.sec) := fun _ => ⟨(rfl : entryAt 0x38 = entrySec), rfl, rfl, rfl, rfl⟩
theorem andAby (x : Word) : Statement (.andAby x) := fun _ => ⟨(rfl : entryAt 0x39 = entryAndAby), rfl, rfl, rfl, rfl⟩
theorem rlaAby (x : Word) : Statement (.rlaAby x) := fun _ => ⟨(rfl : entryAt 0x3B = entryRlaAby), rfl, rfl, rfl, rfl⟩
theorem andAbx (x : Word) : Statement (.andAbx x) := fun _ => ⟨(rfl : entryAt 0x3D = entryAndAbx), rfl, rfl, rfl, rfl⟩
theorem rolAbx (x : Word) : Statement (.rolAbx x) := fun _ => ⟨(rfl : entryAt 0x3E = entryRolAbx), rfl, rfl, rfl, rfl⟩
theorem rlaAbx (x : Word) : Statement (.rlaAbx x) := fun _ => ⟨(rfl : entryAt 0x3F = entryRlaAbx), rfl, rfl, rfl, rfl⟩
theorem rti : Statement (.rti) := fun _ => ⟨(rfl : entryAt 0x40 = entryRti), rfl, rfl, rfl, rfl⟩
theorem eorIzx (x : Byte) : Statement (.eorIzx x) := fun _ => ⟨(rfl : entryAt 0x41 = entryEorIzx), rfl, rfl, rfl, rfl⟩
theorem sreIzx (x : Byte) : Statement (.sreIzx x) := fun _ => ⟨(rfl : entryAt 0x43 = entrySreIzx), rfl, rfl, rfl, rfl⟩
theorem eorZp (x : Byte) : Statement (.eorZp x) := fun _ => ⟨(rfl : entryAt 0x45 = entryEorZp), rfl, rfl, rfl, rfl⟩
theorem lsrZp (x : Byte) : Statement (.lsrZp x) := fun _ => ⟨(rfl : entryAt 0x46 = entryLsrZp), rfl, rfl, rfl, rfl⟩
theorem sreZp (x : Byte) : Statement (.sreZp x) := fun _ => ⟨(rfl : entryAt 0x47 = entrySreZp), rfl, rfl, rfl, rfl⟩
theorem pha : Statement (.pha) := fun _ => ⟨(rfl : entryAt 0x48 = entryPha), rfl, rfl, rfl, rfl⟩
theorem eorImm (x : Byte) : Statement (.eorImm x) := fun _ => ⟨(rfl : entryAt 0x49 = entryEorImm), rfl, rfl, rfl, rfl⟩
theorem lsrAcc : Statement (.lsrAcc) := fun _ => ⟨(rfl : entryAt 0x4A = entryLsrAcc), rfl, rfl, rfl, rfl⟩
theorem alr (x : Byte) : Statement (.alr x) := fun _ => ⟨(rfl : entryAt 0x4B = entryAlr), rfl, rfl, rfl, rfl⟩
theorem jmpAbs (x : Word) : Statement (.jmpAbs x) := fun _ => ⟨(rfl : entryAt 0x4C = entryJmpAbs), rfl, rfl, rfl, rfl⟩
theorem eorAbs (x : Word) : Statement (.eorAbs x) := fun _ => ⟨(rfl : entryAt 0x4D = entryEorAbs), rfl, rfl, rfl, rfl⟩
theorem lsrAbs (x : Word) : Statement (.lsrAbs x) := fun _ => ⟨(rfl : entryAt 0x4E = entryLsrAbs), rfl, rfl, rfl, rfl⟩
theorem sreAbs (x : Word) : Statement (.sreAbs x) := fun _ => ⟨(rfl : entryAt 0x4F = entrySreAbs), rfl, rfl, rfl, rfl⟩
theorem bvc (x : Byte) : Statement (.bvc x) := fun _ => ⟨(rfl : entryAt 0x50 = entryBvc), rfl, rfl, rfl, rfl⟩
theorem eorIzy (x : Byte) : Statement (.eorIzy x) := fun _ => ⟨(rfl : entryAt 0x51 = entryEorIzy), rfl, rfl, rfl, rfl⟩
theorem sreIzy (x : Byte) : Statement (.sreIzy x) := fun _ => ⟨(rfl : entryAt 0x53 = entrySreIzy), rfl, rfl, rfl, rfl⟩
theorem eorZpx (x : Byte) : Statement (.eorZpx x) := fun _ => ⟨(rfl : entryAt 0x55 = entryEorZpx), rfl, rfl, rfl, rfl⟩
theorem lsrZpx (x : Byte) : Statement (.lsrZpx x) := fun _ => ⟨(rfl : entryAt 0x56 = entryLsrZpx), rfl, rfl, rfl, rfl⟩
theorem sreZpx (x : Byte) : Statement (.sreZpx x) := fun _ => ⟨(rfl : entryAt 0x57 = entrySreZpx), rfl, rfl, rfl, rfl⟩
theorem cli : Statement (.cli) := fun _ => ⟨(rfl : entryAt 0x58 = entryCli), rfl, rfl, rfl, rfl⟩
theorem eorAby (x : Word) : Statement (.eorAby x) := fun _ => ⟨(rfl : entryAt 0x59 = entryEorAby), rfl, rfl, rfl, rfl⟩
theorem sreAby (x : Word) : Statement (.sreAby x) := fun _ => ⟨(rfl : entryAt 0x5B = entrySreAby), rfl, rfl, rfl, rfl⟩
theorem eorAbx (x : Word) : Statement (.eorAbx x) := fun _ => ⟨(rfl : entryAt 0x5D = entryEorAbx), rfl, rfl, rfl, rfl⟩
theorem lsrAbx (x : Word) : Statement (.lsrAbx x) := fun _ => ⟨(rfl : entryAt 0x5E = entryLsrAbx), rfl, rfl, rfl, rfl⟩
theorem sreAbx (x : Word) : Statement (.sreAbx x) := fun _ => ⟨(rfl : entryAt 0x5F = entrySreAbx), rfl, rfl, rfl, rfl⟩
theorem rts : Statement (.rts) := fun _ => ⟨(rfl : entryAt 0x60 = entryRts), rfl, rfl, rfl, rfl⟩
theorem adcIzx (x : Byte) : Statement (.adcIzx x) := fun _ => ⟨(rfl : entryAt 0x61 = entryAdcIzx), rfl, rfl, rfl, rfl⟩
theorem rraIzx (x : Byte) : Statement (.rraIzx x) := fun _ => ⟨(rfl : entryAt 0x63 = entryRraIzx), rfl, rfl, rfl, rfl⟩
theorem adcZp (x : Byte) : Statement (.adcZp x) := fun _ => ⟨(rfl : entryAt 0x65 = entryAdcZp), rfl, rfl, rfl, rfl⟩
theorem rorZp (x : Byte) : Statement (.rorZp x) := fun _ => ⟨(rfl : entryAt 0x66 = entryRorZp), rfl, rfl, rfl, rfl⟩
theorem rraZp (x : Byte) : Statement (.rraZp x) := fun _ => ⟨(rfl : entryAt 0x67 = entryRraZp), rfl, rfl, rfl, rfl⟩
theorem pla : Statement (.pla) := fun _ => ⟨(rfl : entryAt 0x68 = entryPla), rfl, rfl, rfl, rfl⟩
theorem adcImm (x : Byte) : Statement (.adcImm x) := fun _ => ⟨(rfl : entryAt 0x69 = entryAdcImm), rfl, rfl, rfl, rfl⟩
theorem rorAcc : Statement (.rorAcc) := fun _ => ⟨(rfl : entryAt 0x6A = entryRorAcc), rfl, rfl, rfl, rfl⟩
theorem arr (x : Byte) : Statement (.arr x) := fun _ => ⟨(rfl : entryAt 0x6B = entryArr), rfl, rfl, rfl, rfl⟩
theorem jmpInd (x : Word) : Statement (.jmpInd x) := fun _ => ⟨(rfl : entryAt 0x6C = entryJmpInd), rfl, rfl, rfl, rfl⟩
theorem adcAbs (x : Word) : Statement (.adcAbs x) := fun _ => ⟨(rfl : entryAt 0x6D = entryAdcAbs), rfl, rfl, rfl, rfl⟩
theorem rorAbs (x : Word) : Statement (.rorAbs x) := fun _ => ⟨(rfl : entryAt 0x6E = entryRorAbs), rfl, rfl, rfl, rfl⟩
theorem rraAbs (x : Word) : Statement (.rraAbs x) := fun _ => ⟨(rfl : entryAt 0x6F = entryRraAbs), rfl, rfl, rfl, rfl⟩
theorem bvs (x : Byte) : Statement (.bvs x) := fun _ => ⟨(rfl : entryAt 0x70 = entryBvs), rfl, rfl, rfl, rfl⟩
theorem adcIzy (x : Byte) : Statement (.adcIzy x) := fun _ => ⟨(rfl : entryAt 0x71 = entryAdcIzy), rfl, rfl, rfl, rfl⟩
theorem rraIzy (x : Byte) : Statement (.rraIzy x) := fun _ => ⟨(rfl : entryAt 0x73 = entryRraIzy), rfl, rfl, rfl, rfl⟩
theorem adcZpx (x : Byte) : Statement (.adcZpx x) := fun _ => ⟨(rfl : entryAt 0x75 = entryAdcZpx), rfl, rfl, rfl, rfl⟩
theorem rorZpx (x : Byte) : Statement (.rorZpx x) := fun _ => ⟨(rfl : entryAt 0x76 = entryRorZpx), rfl, rfl, rfl, rfl⟩
theorem rraZpx (x : Byte) : Statement (.rraZpx x) := fun _ => ⟨(rfl : entryAt 0x77 = entryRraZpx), rfl, rfl, rfl, rfl⟩
theorem sei : Statement (.sei) := fun _ => ⟨(rfl : entryAt 0x78 = entrySei), rfl, rfl, rfl, rfl⟩
theorem adcAby (x : Word) : Statement (.adcAby x) := fun _ => ⟨(rfl : entryAt 0x79 = entryAdcAby), rfl, rfl, rfl, rfl⟩
theorem rraAby (x : Word) : Statement (.rraAby x) := fun _ => ⟨(rfl : entryAt 0x7B = entryRraAby), rfl, rfl, rfl, rfl⟩
theorem adcAbx (x : Word) : Statement (.adcAbx x) := fun _ => ⟨(rfl : entryAt 0x7D = entryAdcAbx), rfl, rfl, rfl, rfl⟩
theorem rorAbx (x : Word) : Statement (.rorAbx x) := fun _ => ⟨(rfl : entryAt 0x7E = entryRorAbx), rfl, rfl, rfl, rfl⟩
theorem rraAbx (x : Word) : Statement (.rraAbx x) := fun _ => ⟨(rfl : entryAt 0x7F = entryRraAbx), rfl, rfl, rfl, rfl⟩
theorem nopImm (op : Byte) (x : Byte) : Statement (.nopImm op x) := by
  intro h
  obtain rfl | rfl | rfl | rfl | rfl := Instr.wellFormed_nopImm h 
  all_goals exact ⟨by simp only [Instr.opcode]; exact Eq.trans (b := entryNopImm) rfl rfl, rfl, rfl, rfl, rfl⟩
theorem staIzx (x : Byte) : Statement (.staIzx x) := fun _ => ⟨(rfl : entryAt 0x81 = entryStaIzx), rfl, rfl, rfl, rfl⟩
theorem saxIzx (x : Byte) : Statement (.saxIzx x) := fun _ => ⟨(rfl : entryAt 0x83 = entrySaxIzx), rfl, rfl, rfl, rfl⟩
theorem styZp (x : Byte) : Statement (.styZp x) := fun _ => ⟨(rfl : entryAt 0x84 = entryStyZp), rfl, rfl, rfl, rfl⟩
theorem staZp (x : Byte) : Statement (.staZp x) := fun _ => ⟨(rfl : entryAt 0x85 = entryStaZp), rfl, rfl, rfl, rfl⟩
theorem stxZp (x : Byte) : Statement (.stxZp x) := fun _ => ⟨(rfl : entryAt 0x86 = entryStxZp), rfl, rfl, rfl, rfl⟩
theorem saxZp (x : Byte) : Statement (.saxZp x) := fun _ => ⟨(rfl : entryAt 0x87 = entrySaxZp), rfl, rfl, rfl, rfl⟩
theorem dey : Statement (.dey) := fun _ => ⟨(rfl : entryAt 0x88 = entryDey), rfl, rfl, rfl, rfl⟩
theorem txa : Statement (.txa) := fun _ => ⟨(rfl : entryAt 0x8A = entryTxa), rfl, rfl, rfl, rfl⟩
theorem ane (x : Byte) : Statement (.ane x) := fun _ => ⟨(rfl : entryAt 0x8B = entryAne), rfl, rfl, rfl, rfl⟩
theorem styAbs (x : Word) : Statement (.styAbs x) := fun _ => ⟨(rfl : entryAt 0x8C = entryStyAbs), rfl, rfl, rfl, rfl⟩
theorem staAbs (x : Word) : Statement (.staAbs x) := fun _ => ⟨(rfl : entryAt 0x8D = entryStaAbs), rfl, rfl, rfl, rfl⟩
theorem stxAbs (x : Word) : Statement (.stxAbs x) := fun _ => ⟨(rfl : entryAt 0x8E = entryStxAbs), rfl, rfl, rfl, rfl⟩
theorem saxAbs (x : Word) : Statement (.saxAbs x) := fun _ => ⟨(rfl : entryAt 0x8F = entrySaxAbs), rfl, rfl, rfl, rfl⟩
theorem bcc (x : Byte) : Statement (.bcc x) := fun _ => ⟨(rfl : entryAt 0x90 = entryBcc), rfl, rfl, rfl, rfl⟩
theorem staIzy (x : Byte) : Statement (.staIzy x) := fun _ => ⟨(rfl : entryAt 0x91 = entryStaIzy), rfl, rfl, rfl, rfl⟩
theorem shaIzy (x : Byte) : Statement (.shaIzy x) := fun _ => ⟨(rfl : entryAt 0x93 = entryShaIzy), rfl, rfl, rfl, rfl⟩
theorem styZpx (x : Byte) : Statement (.styZpx x) := fun _ => ⟨(rfl : entryAt 0x94 = entryStyZpx), rfl, rfl, rfl, rfl⟩
theorem staZpx (x : Byte) : Statement (.staZpx x) := fun _ => ⟨(rfl : entryAt 0x95 = entryStaZpx), rfl, rfl, rfl, rfl⟩
theorem stxZpy (x : Byte) : Statement (.stxZpy x) := fun _ => ⟨(rfl : entryAt 0x96 = entryStxZpy), rfl, rfl, rfl, rfl⟩
theorem saxZpy (x : Byte) : Statement (.saxZpy x) := fun _ => ⟨(rfl : entryAt 0x97 = entrySaxZpy), rfl, rfl, rfl, rfl⟩
theorem tya : Statement (.tya) := fun _ => ⟨(rfl : entryAt 0x98 = entryTya), rfl, rfl, rfl, rfl⟩
theorem staAby (x : Word) : Statement (.staAby x) := fun _ => ⟨(rfl : entryAt 0x99 = entryStaAby), rfl, rfl, rfl, rfl⟩
theorem txs : Statement (.txs) := fun _ => ⟨(rfl : entryAt 0x9A = entryTxs), rfl, rfl, rfl, rfl⟩
theorem tas (x : Word) : Statement (.tas x) := fun _ => ⟨(rfl : entryAt 0x9B = entryTas), rfl, rfl, rfl, rfl⟩
theorem shy (x : Word) : Statement (.shy x) := fun _ => ⟨(rfl : entryAt 0x9C = entryShy), rfl, rfl, rfl, rfl⟩
theorem staAbx (x : Word) : Statement (.staAbx x) := fun _ => ⟨(rfl : entryAt 0x9D = entryStaAbx), rfl, rfl, rfl, rfl⟩
theorem shx (x : Word) : Statement (.shx x) := fun _ => ⟨(rfl : entryAt 0x9E = entryShx), rfl, rfl, rfl, rfl⟩
theorem shaAby (x : Word) : Statement (.shaAby x) := fun _ => ⟨(rfl : entryAt 0x9F = entryShaAby), rfl, rfl, rfl, rfl⟩
theorem ldyImm (x : Byte) : Statement (.ldyImm x) := fun _ => ⟨(rfl : entryAt 0xA0 = entryLdyImm), rfl, rfl, rfl, rfl⟩
theorem ldaIzx (x : Byte) : Statement (.ldaIzx x) := fun _ => ⟨(rfl : entryAt 0xA1 = entryLdaIzx), rfl, rfl, rfl, rfl⟩
theorem ldxImm (x : Byte) : Statement (.ldxImm x) := fun _ => ⟨(rfl : entryAt 0xA2 = entryLdxImm), rfl, rfl, rfl, rfl⟩
theorem laxIzx (x : Byte) : Statement (.laxIzx x) := fun _ => ⟨(rfl : entryAt 0xA3 = entryLaxIzx), rfl, rfl, rfl, rfl⟩
theorem ldyZp (x : Byte) : Statement (.ldyZp x) := fun _ => ⟨(rfl : entryAt 0xA4 = entryLdyZp), rfl, rfl, rfl, rfl⟩
theorem ldaZp (x : Byte) : Statement (.ldaZp x) := fun _ => ⟨(rfl : entryAt 0xA5 = entryLdaZp), rfl, rfl, rfl, rfl⟩
theorem ldxZp (x : Byte) : Statement (.ldxZp x) := fun _ => ⟨(rfl : entryAt 0xA6 = entryLdxZp), rfl, rfl, rfl, rfl⟩
theorem laxZp (x : Byte) : Statement (.laxZp x) := fun _ => ⟨(rfl : entryAt 0xA7 = entryLaxZp), rfl, rfl, rfl, rfl⟩
theorem tay : Statement (.tay) := fun _ => ⟨(rfl : entryAt 0xA8 = entryTay), rfl, rfl, rfl, rfl⟩
theorem ldaImm (x : Byte) : Statement (.ldaImm x) := fun _ => ⟨(rfl : entryAt 0xA9 = entryLdaImm), rfl, rfl, rfl, rfl⟩
theorem tax : Statement (.tax) := fun _ => ⟨(rfl : entryAt 0xAA = entryTax), rfl, rfl, rfl, rfl⟩
theorem lxa (x : Byte) : Statement (.lxa x) := fun _ => ⟨(rfl : entryAt 0xAB = entryLxa), rfl, rfl, rfl, rfl⟩
theorem ldyAbs (x : Word) : Statement (.ldyAbs x) := fun _ => ⟨(rfl : entryAt 0xAC = entryLdyAbs), rfl, rfl, rfl, rfl⟩
theorem ldaAbs (x : Word) : Statement (.ldaAbs x) := fun _ => ⟨(rfl : entryAt 0xAD = entryLdaAbs), rfl, rfl, rfl, rfl⟩
theorem ldxAbs (x : Word) : Statement (.ldxAbs x) := fun _ => ⟨(rfl : entryAt 0xAE = entryLdxAbs), rfl, rfl, rfl, rfl⟩
theorem laxAbs (x : Word) : Statement (.laxAbs x) := fun _ => ⟨(rfl : entryAt 0xAF = entryLaxAbs), rfl, rfl, rfl, rfl⟩
theorem bcs (x : Byte) : Statement (.bcs x) := fun _ => ⟨(rfl : entryAt 0xB0 = entryBcs), rfl, rfl, rfl, rfl⟩
theorem ldaIzy (x : Byte) : Statement (.ldaIzy x) := fun _ => ⟨(rfl : entryAt 0xB1 = entryLdaIzy), rfl, rfl, rfl, rfl⟩
theorem laxIzy (x : Byte) : Statement (.laxIzy x) := fun _ => ⟨(rfl : entryAt 0xB3 = entryLaxIzy), rfl, rfl, rfl, rfl⟩
theorem ldyZpx (x : Byte) : Statement (.ldyZpx x) := fun _ => ⟨(rfl : entryAt 0xB4 = entryLdyZpx), rfl, rfl, rfl, rfl⟩
theorem ldaZpx (x : Byte) : Statement (.ldaZpx x) := fun _ => ⟨(rfl : entryAt 0xB5 = entryLdaZpx), rfl, rfl, rfl, rfl⟩
theorem ldxZpy (x : Byte) : Statement (.ldxZpy x) := fun _ => ⟨(rfl : entryAt 0xB6 = entryLdxZpy), rfl, rfl, rfl, rfl⟩
theorem laxZpy (x : Byte) : Statement (.laxZpy x) := fun _ => ⟨(rfl : entryAt 0xB7 = entryLaxZpy), rfl, rfl, rfl, rfl⟩
theorem clv : Statement (.clv) := fun _ => ⟨(rfl : entryAt 0xB8 = entryClv), rfl, rfl, rfl, rfl⟩
theorem ldaAby (x : Word) : Statement (.ldaAby x) := fun _ => ⟨(rfl : entryAt 0xB9 = entryLdaAby), rfl, rfl, rfl, rfl⟩
theorem tsx : Statement (.tsx) := fun _ => ⟨(rfl : entryAt 0xBA = entryTsx), rfl, rfl, rfl, rfl⟩
theorem las (x : Word) : Statement (.las x) := fun _ => ⟨(rfl : entryAt 0xBB = entryLas), rfl, rfl, rfl, rfl⟩
theorem ldyAbx (x : Word) : Statement (.ldyAbx x) := fun _ => ⟨(rfl : entryAt 0xBC = entryLdyAbx), rfl, rfl, rfl, rfl⟩
theorem ldaAbx (x : Word) : Statement (.ldaAbx x) := fun _ => ⟨(rfl : entryAt 0xBD = entryLdaAbx), rfl, rfl, rfl, rfl⟩
theorem ldxAby (x : Word) : Statement (.ldxAby x) := fun _ => ⟨(rfl : entryAt 0xBE = entryLdxAby), rfl, rfl, rfl, rfl⟩
theorem laxAby (x : Word) : Statement (.laxAby x) := fun _ => ⟨(rfl : entryAt 0xBF = entryLaxAby), rfl, rfl, rfl, rfl⟩
theorem cpyImm (x : Byte) : Statement (.cpyImm x) := fun _ => ⟨(rfl : entryAt 0xC0 = entryCpyImm), rfl, rfl, rfl, rfl⟩
theorem cmpIzx (x : Byte) : Statement (.cmpIzx x) := fun _ => ⟨(rfl : entryAt 0xC1 = entryCmpIzx), rfl, rfl, rfl, rfl⟩
theorem dcpIzx (x : Byte) : Statement (.dcpIzx x) := fun _ => ⟨(rfl : entryAt 0xC3 = entryDcpIzx), rfl, rfl, rfl, rfl⟩
theorem cpyZp (x : Byte) : Statement (.cpyZp x) := fun _ => ⟨(rfl : entryAt 0xC4 = entryCpyZp), rfl, rfl, rfl, rfl⟩
theorem cmpZp (x : Byte) : Statement (.cmpZp x) := fun _ => ⟨(rfl : entryAt 0xC5 = entryCmpZp), rfl, rfl, rfl, rfl⟩
theorem decZp (x : Byte) : Statement (.decZp x) := fun _ => ⟨(rfl : entryAt 0xC6 = entryDecZp), rfl, rfl, rfl, rfl⟩
theorem dcpZp (x : Byte) : Statement (.dcpZp x) := fun _ => ⟨(rfl : entryAt 0xC7 = entryDcpZp), rfl, rfl, rfl, rfl⟩
theorem iny : Statement (.iny) := fun _ => ⟨(rfl : entryAt 0xC8 = entryIny), rfl, rfl, rfl, rfl⟩
theorem cmpImm (x : Byte) : Statement (.cmpImm x) := fun _ => ⟨(rfl : entryAt 0xC9 = entryCmpImm), rfl, rfl, rfl, rfl⟩
theorem dex : Statement (.dex) := fun _ => ⟨(rfl : entryAt 0xCA = entryDex), rfl, rfl, rfl, rfl⟩
theorem sbx (x : Byte) : Statement (.sbx x) := fun _ => ⟨(rfl : entryAt 0xCB = entrySbx), rfl, rfl, rfl, rfl⟩
theorem cpyAbs (x : Word) : Statement (.cpyAbs x) := fun _ => ⟨(rfl : entryAt 0xCC = entryCpyAbs), rfl, rfl, rfl, rfl⟩
theorem cmpAbs (x : Word) : Statement (.cmpAbs x) := fun _ => ⟨(rfl : entryAt 0xCD = entryCmpAbs), rfl, rfl, rfl, rfl⟩
theorem decAbs (x : Word) : Statement (.decAbs x) := fun _ => ⟨(rfl : entryAt 0xCE = entryDecAbs), rfl, rfl, rfl, rfl⟩
theorem dcpAbs (x : Word) : Statement (.dcpAbs x) := fun _ => ⟨(rfl : entryAt 0xCF = entryDcpAbs), rfl, rfl, rfl, rfl⟩
theorem bne (x : Byte) : Statement (.bne x) := fun _ => ⟨(rfl : entryAt 0xD0 = entryBne), rfl, rfl, rfl, rfl⟩
theorem cmpIzy (x : Byte) : Statement (.cmpIzy x) := fun _ => ⟨(rfl : entryAt 0xD1 = entryCmpIzy), rfl, rfl, rfl, rfl⟩
theorem dcpIzy (x : Byte) : Statement (.dcpIzy x) := fun _ => ⟨(rfl : entryAt 0xD3 = entryDcpIzy), rfl, rfl, rfl, rfl⟩
theorem cmpZpx (x : Byte) : Statement (.cmpZpx x) := fun _ => ⟨(rfl : entryAt 0xD5 = entryCmpZpx), rfl, rfl, rfl, rfl⟩
theorem decZpx (x : Byte) : Statement (.decZpx x) := fun _ => ⟨(rfl : entryAt 0xD6 = entryDecZpx), rfl, rfl, rfl, rfl⟩
theorem dcpZpx (x : Byte) : Statement (.dcpZpx x) := fun _ => ⟨(rfl : entryAt 0xD7 = entryDcpZpx), rfl, rfl, rfl, rfl⟩
theorem cld : Statement (.cld) := fun _ => ⟨(rfl : entryAt 0xD8 = entryCld), rfl, rfl, rfl, rfl⟩
theorem cmpAby (x : Word) : Statement (.cmpAby x) := fun _ => ⟨(rfl : entryAt 0xD9 = entryCmpAby), rfl, rfl, rfl, rfl⟩
theorem dcpAby (x : Word) : Statement (.dcpAby x) := fun _ => ⟨(rfl : entryAt 0xDB = entryDcpAby), rfl, rfl, rfl, rfl⟩
theorem cmpAbx (x : Word) : Statement (.cmpAbx x) := fun _ => ⟨(rfl : entryAt 0xDD = entryCmpAbx), rfl, rfl, rfl, rfl⟩
theorem decAbx (x : Word) : Statement (.decAbx x) := fun _ => ⟨(rfl : entryAt 0xDE = entryDecAbx), rfl, rfl, rfl, rfl⟩
theorem dcpAbx (x : Word) : Statement (.dcpAbx x) := fun _ => ⟨(rfl : entryAt 0xDF = entryDcpAbx), rfl, rfl, rfl, rfl⟩
theorem cpxImm (x : Byte) : Statement (.cpxImm x) := fun _ => ⟨(rfl : entryAt 0xE0 = entryCpxImm), rfl, rfl, rfl, rfl⟩
theorem sbcIzx (x : Byte) : Statement (.sbcIzx x) := fun _ => ⟨(rfl : entryAt 0xE1 = entrySbcIzx), rfl, rfl, rfl, rfl⟩
theorem iscIzx (x : Byte) : Statement (.iscIzx x) := fun _ => ⟨(rfl : entryAt 0xE3 = entryIscIzx), rfl, rfl, rfl, rfl⟩
theorem cpxZp (x : Byte) : Statement (.cpxZp x) := fun _ => ⟨(rfl : entryAt 0xE4 = entryCpxZp), rfl, rfl, rfl, rfl⟩
theorem sbcZp (x : Byte) : Statement (.sbcZp x) := fun _ => ⟨(rfl : entryAt 0xE5 = entrySbcZp), rfl, rfl, rfl, rfl⟩
theorem incZp (x : Byte) : Statement (.incZp x) := fun _ => ⟨(rfl : entryAt 0xE6 = entryIncZp), rfl, rfl, rfl, rfl⟩
theorem iscZp (x : Byte) : Statement (.iscZp x) := fun _ => ⟨(rfl : entryAt 0xE7 = entryIscZp), rfl, rfl, rfl, rfl⟩
theorem inx : Statement (.inx) := fun _ => ⟨(rfl : entryAt 0xE8 = entryInx), rfl, rfl, rfl, rfl⟩
theorem sbcImm (x : Byte) : Statement (.sbcImm x) := fun _ => ⟨(rfl : entryAt 0xE9 = entrySbcImm), rfl, rfl, rfl, rfl⟩
theorem nop : Statement (.nop) := fun _ => ⟨(rfl : entryAt 0xEA = entryNop), rfl, rfl, rfl, rfl⟩
theorem usbc (x : Byte) : Statement (.usbc x) := fun _ => ⟨(rfl : entryAt 0xEB = entryUsbc), rfl, rfl, rfl, rfl⟩
theorem cpxAbs (x : Word) : Statement (.cpxAbs x) := fun _ => ⟨(rfl : entryAt 0xEC = entryCpxAbs), rfl, rfl, rfl, rfl⟩
theorem sbcAbs (x : Word) : Statement (.sbcAbs x) := fun _ => ⟨(rfl : entryAt 0xED = entrySbcAbs), rfl, rfl, rfl, rfl⟩
theorem incAbs (x : Word) : Statement (.incAbs x) := fun _ => ⟨(rfl : entryAt 0xEE = entryIncAbs), rfl, rfl, rfl, rfl⟩
theorem iscAbs (x : Word) : Statement (.iscAbs x) := fun _ => ⟨(rfl : entryAt 0xEF = entryIscAbs), rfl, rfl, rfl, rfl⟩
theorem beq (x : Byte) : Statement (.beq x) := fun _ => ⟨(rfl : entryAt 0xF0 = entryBeq), rfl, rfl, rfl, rfl⟩
theorem sbcIzy (x : Byte) : Statement (.sbcIzy x) := fun _ => ⟨(rfl : entryAt 0xF1 = entrySbcIzy), rfl, rfl, rfl, rfl⟩
theorem iscIzy (x : Byte) : Statement (.iscIzy x) := fun _ => ⟨(rfl : entryAt 0xF3 = entryIscIzy), rfl, rfl, rfl, rfl⟩
theorem sbcZpx (x : Byte) : Statement (.sbcZpx x) := fun _ => ⟨(rfl : entryAt 0xF5 = entrySbcZpx), rfl, rfl, rfl, rfl⟩
theorem incZpx (x : Byte) : Statement (.incZpx x) := fun _ => ⟨(rfl : entryAt 0xF6 = entryIncZpx), rfl, rfl, rfl, rfl⟩
theorem iscZpx (x : Byte) : Statement (.iscZpx x) := fun _ => ⟨(rfl : entryAt 0xF7 = entryIscZpx), rfl, rfl, rfl, rfl⟩
theorem sed : Statement (.sed) := fun _ => ⟨(rfl : entryAt 0xF8 = entrySed), rfl, rfl, rfl, rfl⟩
theorem sbcAby (x : Word) : Statement (.sbcAby x) := fun _ => ⟨(rfl : entryAt 0xF9 = entrySbcAby), rfl, rfl, rfl, rfl⟩
theorem iscAby (x : Word) : Statement (.iscAby x) := fun _ => ⟨(rfl : entryAt 0xFB = entryIscAby), rfl, rfl, rfl, rfl⟩
theorem sbcAbx (x : Word) : Statement (.sbcAbx x) := fun _ => ⟨(rfl : entryAt 0xFD = entrySbcAbx), rfl, rfl, rfl, rfl⟩
theorem incAbx (x : Word) : Statement (.incAbx x) := fun _ => ⟨(rfl : entryAt 0xFE = entryIncAbx), rfl, rfl, rfl, rfl⟩
theorem iscAbx (x : Word) : Statement (.iscAbx x) := fun _ => ⟨(rfl : entryAt 0xFF = entryIscAbx), rfl, rfl, rfl, rfl⟩

end Sys2Proof.Laws.TableAgrees
end

