-- ==== Sys2Proof/Tests/Slice0.lean ====
section
/-! SUPPORT. Tests. The expected results are the spec's own vectors (95_test_vectors), the encodings of 30_encoding R54 and
R59 written out byte by byte, and hand calculation from the rules cited. The last part shows, for every obligation with
premises, a concrete state and operands that meet them. -/

namespace Sys2Proof.Tests

open Sys2Proof Sys2Proof.Machine

/-! ## Small states -/

/-- The registers right after reset (95_test_vectors, Conventions). -/
def r0 : Regs := State.reset.regs

/-- A state between instructions over RAM that holds these cells. -/
def at_ (r : Regs) (pc : Word) (cells : Memory) : State :=
  { State.reset with
    regs := r, pc := pc
    bus := { mem := cells.foldl (fun m c => m.write c.1 c.2) [], regions := [], trace := [] } }

/-- One step ends between instructions with these registers and PC, after so many cycles and these writes. -/
def ends (s : State) (r : Regs) (pc : Word) (cycles : Nat) (writes : List (Word × Byte)) : Bool :=
  match step s with
  | .next t =>
    t.t == 0 && t.regs == r && t.pc == pc && t.bus.trace.length == cycles &&
      ((t.bus.trace.reverse.filter fun e => e.kind == .write).map fun e => (e.addr, e.value)) == writes
  | _ => false

/-- One step makes exactly these accesses: cycle, whether a write, address, value. -/
def traceIs (s : State) (l : List (Nat × Bool × Word × Byte)) : Bool :=
  match step s with
  | .next t => (t.bus.trace.reverse.map fun e => (e.cycle, e.kind == .write, e.addr, e.value)) == l
  | _ => false

/-- What holds of the next state, if there is one. -/
def thenIs (o : Host.Outcome State Fault Refusal) (p : State → Bool) : Bool :=
  match o with
  | .next t => p t
  | _ => false

/-! ## Well-formedness refuses ill-formed terms -/

theorem test_table_passes : tableOk opcodeTable = true := by decide +kernel

/-- R107: a base cycle count that is not the expected one. -/
theorem test_refuses_wrong_cycles : ({ entryNop with cycles := some 3 } : Entry).cyclesOk = false := by decide

/-- R105: a penalty the template has no cycle for. -/
theorem test_refuses_wrong_penalty : ({ entryLdaAbs with penalty := .pageCross } : Entry).penaltyOk = false := by decide

/-- R107: a byte length that is not the number of fetches. -/
theorem test_refuses_wrong_length : ({ entryLdaAbs with bytes := 2 } : Entry).bytesOk = false := by decide

theorem test_refuses_bad_entry : ({ entryLdaAbs with bytes := 2 } : Entry).wellFormed = false := by decide

theorem test_refuses_short_table : tableOk [entryNop] = false := by decide

/-- R59: 0x01 is no JAM, 0x05 no NOP zp, 0x4B no ANC, 0x15 no NOP zp,X, 0xEB no NOP, 0x1D no NOP abs,X, 0xA2 no NOP #. -/
theorem test_refuses_foreign_opcodes :
    [(Instr.jam 0x01), .nopZp 0x05 0, .anc 0x4B 0, .nopZpx 0x15 0, .nopImp 0xEB, .nopAbx 0x1D 0, .nopImm 0xA2 0].all
      (fun i => i.wellFormed == false) = true := by decide

theorem test_accepts_own_opcodes :
    [(Instr.jam 0xF2), .nopZp 0x64 0, .anc 0x2B 0, .nopZpx 0xF4 0, .nopImp 0xFA, .nopAbx 0xFC 0, .nopImm 0xE2 0].all
      (fun i => i.wellFormed) = true := by decide

/-! ## Decoding, from the encodings of R54 and R59 -/

theorem test_decode_alu : decode [0x71, 0x20] = .ok (.adcIzy 0x20, []) ∧ decode [0xE9, 0xF0] = .ok (.sbcImm 0xF0, []) ∧
    decode [0x2C, 0x34, 0x12] = .ok (.bitAbs 0x1234, []) := ⟨rfl, rfl, rfl⟩

theorem test_decode_load_store : decode [0xB6, 0xFF] = .ok (.ldxZpy 0xFF, []) ∧
    decode [0x9D, 0xFF, 0x20] = .ok (.staAbx 0x20FF, []) ∧ decode [0xBA] = .ok (.tsx, []) := ⟨rfl, rfl, rfl⟩

theorem test_decode_shift : decode [0x4A] = .ok (.lsrAcc, []) ∧ decode [0x3E, 0x00, 0x02] = .ok (.rolAbx 0x0200, []) ∧
    decode [0xC6, 0x10] = .ok (.decZp 0x10, []) ∧ decode [0x88] = .ok (.dey, []) := ⟨rfl, rfl, rfl, rfl⟩

theorem test_decode_flags_nop : decode [0xB8] = .ok (.clv, []) ∧ decode [0xEA] = .ok (.nop, []) ∧
    decode [0x3C, 0x01, 0x02] = .ok (.nopAbx 0x3C 0x0201, []) := ⟨rfl, rfl, rfl⟩

theorem test_decode_control : decode [0x6C, 0xFF, 0x02] = .ok (.jmpInd 0x02FF, []) ∧
    decode [0x20, 0x34, 0x12] = .ok (.jsr 0x1234, []) ∧ decode [0xF0, 0x80] = .ok (.beq 0x80, []) ∧
    decode [0x40] = .ok (.rti, []) := ⟨rfl, rfl, rfl, rfl⟩

theorem test_decode_stack : decode [0x48] = .ok (.pha, []) ∧ decode [0x28] = .ok (.plp, []) := ⟨rfl, rfl⟩

theorem test_decode_unofficial : decode [0xDB, 0x00, 0x20] = .ok (.dcpAby 0x2000, []) ∧
    decode [0xEB, 0x01] = .ok (.usbc 0x01, []) ∧ decode [0x9F, 0x00, 0x12] = .ok (.shaAby 0x1200, []) ∧
    decode [0xF2] = .ok (.jam 0xF2, []) := ⟨rfl, rfl, rfl, rfl⟩

/-- Too few bytes are refused by name. -/
theorem test_decode_refuses : decode [] = .error .noOpcode ∧ decode [0xAD, 0x00] = .error .truncated := ⟨rfl, rfl⟩

/-- The host's numbering: byte 1 is bits 15 to 8; bits above `nbits` are 0. -/
theorem test_decode_table_word : decodeTableWord 8 0xA9 = some (.ldaImm 0) ∧ decodeTableWord 24 0x1234AD =
    some (.ldaAbs 0x1234) := ⟨rfl, rfl⟩

/-- The step after `withFetchWord` runs that instruction, where a device stood too. -/
theorem test_with_fetch_word : thenIs (step (State.reset.withFetchWord 16 0x42A9)) (fun t => t.regs.a == 0x42) = true ∧
    thenIs (step (State.withFetchWord
      { State.reset with bus := { mem := [], regions := [{ base := 0, size := 16, kind := .device }], trace := [] } }
      16 0x42A9)) (fun t => t.regs.a == 0x42) = true := by decide

/-! ## The derived vectors of 95_test_vectors §3, one step each -/

/-- V41.6: ADC with D=1 stays binary. -/
theorem test_adc_imm_V41_6 : ends (at_ { r0 with a := 0x09, c := false, d := true } 0x8000 [(0x8000, 0x69),
    (0x8001, 0x01)]) { r0 with a := 0x0A, d := true } 0x8002 2 [] = true := by decide

/-- V41.8: ADC (zp),Y page cross. -/
theorem test_adc_izy_V41_8 : ends (at_ { r0 with a := 0x01, y := 0xFF } 0x8000 [(0x0020, 0x01), (0x0021, 0x30),
    (0x3100, 0x05), (0x8000, 0x71), (0x8001, 0x20)]) { r0 with a := 0x06, y := 0xFF } 0x8002 6 [] = true := by decide

/-- V41.10: SBC signed overflow. -/
theorem test_sbc_imm_V41_10 : ends (at_ { r0 with a := 0x50, c := true } 0x8000 [(0x8000, 0xE9), (0x8001, 0xB0)])
    { r0 with a := 0xA0, n := true, v := true } 0x8002 2 [] = true := by decide

/-- V41.12: SBC borrow in. -/
theorem test_sbc_imm_V41_12 : ends (at_ { r0 with a := 0x00, c := false } 0x8000 [(0x8000, 0xE9), (0x8001, 0x00)])
    { r0 with a := 0xFF, n := true } 0x8002 2 [] = true := by decide

/-- V41.13: AND. -/
theorem test_and_imm_V41_13 : ends (at_ { r0 with a := 0xF0 } 0x8000 [(0x8000, 0x29), (0x8001, 0x3C)])
    { r0 with a := 0x30 } 0x8002 2 [] = true := by decide

/-- V41.14: AND to zero. -/
theorem test_and_imm_V41_14 : ends (at_ { r0 with a := 0xF0 } 0x8000 [(0x8000, 0x29), (0x8001, 0x0F)])
    { r0 with z := true } 0x8002 2 [] = true := by decide

/-- V41.15: ORA sets N. -/
theorem test_ora_imm_V41_15 : ends (at_ { r0 with a := 0x0F } 0x8000 [(0x8000, 0x09), (0x8001, 0x80)])
    { r0 with a := 0x8F, n := true } 0x8002 2 [] = true := by decide

/-- V41.16: EOR complement. -/
theorem test_eor_imm_V41_16 : ends (at_ { r0 with a := 0x0F } 0x8000 [(0x8000, 0x49), (0x8001, 0xFF)])
    { r0 with a := 0xF0, n := true } 0x8002 2 [] = true := by decide

/-- V41.17: EOR self gives Z. -/
theorem test_eor_zp_V41_17 : ends (at_ { r0 with a := 0x55 } 0x8000 [(0x0010, 0x55), (0x8000, 0x45), (0x8001, 0x10)])
    { r0 with z := true } 0x8002 3 [] = true := by decide

/-- V41.18: CMP less. -/
theorem test_cmp_imm_V41_18 : ends (at_ { r0 with a := 0x40 } 0x8000 [(0x8000, 0xC9), (0x8001, 0x41)])
    { r0 with a := 0x40, n := true } 0x8002 2 [] = true := by decide

/-- V41.19: CMP equal. -/
theorem test_cmp_imm_V41_19 : ends (at_ { r0 with a := 0x40 } 0x8000 [(0x8000, 0xC9), (0x8001, 0x40)])
    { r0 with a := 0x40, z := true, c := true } 0x8002 2 [] = true := by decide

/-- V41.21: CPX greater. -/
theorem test_cpx_imm_V41_21 : ends (at_ { r0 with x := 0x20 } 0x8000 [(0x8000, 0xE0), (0x8001, 0x10)])
    { r0 with x := 0x20, c := true } 0x8002 2 [] = true := by decide

/-- V41.22: CPY 0x7F vs 0x80. -/
theorem test_cpy_imm_V41_22 : ends (at_ { r0 with y := 0x7F } 0x8000 [(0x8000, 0xC0), (0x8001, 0x80)])
    { r0 with y := 0x7F, n := true } 0x8002 2 [] = true := by decide

/-- V41.23: BIT zp. -/
theorem test_bit_zp_V41_23 : ends (at_ { r0 with a := 0x0F } 0x8000 [(0x0010, 0xC0), (0x8000, 0x24), (0x8001, 0x10)])
    { r0 with a := 0x0F, n := true, v := true, z := true } 0x8002 3 [] = true := by decide

/-- V41.24: BIT abs. -/
theorem test_bit_abs_V41_24 : ends (at_ { r0 with a := 0xFF } 0x8000 [(0x1234, 0x3F), (0x8000, 0x2C), (0x8001, 0x34),
    (0x8002, 0x12)]) { r0 with a := 0xFF } 0x8003 4 [] = true := by decide

/-- V42.1: LDA imm zero. -/
theorem test_lda_imm_V42_1 : ends (at_ { r0 with a := 0x12 } 0x8000 [(0x8000, 0xA9), (0x8001, 0x00)])
    { r0 with z := true } 0x8002 2 [] = true := by decide

/-- V42.2: LDA imm negative. -/
theorem test_lda_imm_V42_2 : ends (at_ r0 0x8000 [(0x8000, 0xA9), (0x8001, 0x80)]) { r0 with a := 0x80, n := true }
    0x8002 2 [] = true := by decide

/-- V42.8: LDX zp,Y wrap. -/
theorem test_ldx_zpy_V42_8 : ends (at_ { r0 with y := 0x02 } 0x8000 [(0x0001, 0x81), (0x8000, 0xB6), (0x8001, 0xFF)])
    { r0 with x := 0x81, y := 0x02, n := true } 0x8002 4 [] = true := by decide

/-- V42.9: LDY abs. -/
theorem test_ldy_abs_V42_9 : ends (at_ r0 0x8000 [(0x2000, 0x01), (0x8000, 0xAC), (0x8001, 0x00), (0x8002, 0x20)])
    { r0 with y := 0x01 } 0x8003 4 [] = true := by decide

/-- V42.10: STA abs,X always 5. -/
theorem test_sta_abx_V42_10 : ends (at_ { r0 with a := 0x99, x := 0x01 } 0x8000 [(0x8000, 0x9D), (0x8001, 0xFF),
    (0x8002, 0x20)]) { r0 with a := 0x99, x := 0x01 } 0x8003 5 [(0x2100, 0x99)] = true := by decide

/-- V42.11: STA zp keeps flags. -/
theorem test_sta_zp_V42_11 : ends (at_ { r0 with a := 0x00, n := true } 0x8000 [(0x8000, 0x85), (0x8001, 0x10)])
    { r0 with n := true } 0x8002 3 [(0x0010, 0x00)] = true := by decide

/-- V42.12: STX zp,Y wrap. -/
theorem test_stx_zpy_V42_12 : ends (at_ { r0 with x := 0x5A, y := 0x02 } 0x8000 [(0x8000, 0x96), (0x8001, 0xFF)])
    { r0 with x := 0x5A, y := 0x02 } 0x8002 4 [(0x0001, 0x5A)] = true := by decide

/-- V42.13: STY zp,X wrap. -/
theorem test_sty_zpx_V42_13 : ends (at_ { r0 with y := 0x44, x := 0x02 } 0x8000 [(0x8000, 0x94), (0x8001, 0xFF)])
    { r0 with x := 0x02, y := 0x44 } 0x8002 4 [(0x0001, 0x44)] = true := by decide

/-- V42.15: TAX negative. -/
theorem test_tax_V42_15 : ends (at_ { r0 with a := 0x80 } 0x8000 [(0x8000, 0xAA)])
    { r0 with a := 0x80, x := 0x80, n := true } 0x8001 2 [] = true := by decide

/-- V42.16: TAY zero. -/
theorem test_tay_V42_16 : ends (at_ { r0 with a := 0x00, y := 0x55 } 0x8000 [(0x8000, 0xA8)]) { r0 with z := true }
    0x8001 2 [] = true := by decide

/-- V42.17: TXA. -/
theorem test_txa_V42_17 : ends (at_ { r0 with x := 0xFE } 0x8000 [(0x8000, 0x8A)])
    { r0 with a := 0xFE, x := 0xFE, n := true } 0x8001 2 [] = true := by decide

/-- V42.18: TYA zero. -/
theorem test_tya_V42_18 : ends (at_ { r0 with a := 0x11, y := 0x00 } 0x8000 [(0x8000, 0x98)]) { r0 with z := true }
    0x8001 2 [] = true := by decide

/-- V42.19: TSX after reset. -/
theorem test_tsx_V42_19 : ends (at_ r0 0x8000 [(0x8000, 0xBA)]) { r0 with x := 0xFD, n := true } 0x8001 2 [] = true :=
    by decide

/-- V42.20: TXS sets no flag. -/
theorem test_txs_V42_20 : ends (at_ { r0 with x := 0x00 } 0x8000 [(0x8000, 0x9A)]) { r0 with s := 0x00 } 0x8001 2 [] =
    true := by decide

/-- V43.1: ASL A. -/
theorem test_asl_acc_V43_1 : ends (at_ { r0 with a := 0xC1 } 0x8000 [(0x8000, 0x0A)])
    { r0 with a := 0x82, n := true, c := true } 0x8001 2 [] = true := by decide

/-- V43.2: ASL A to zero. -/
theorem test_asl_acc_V43_2 : ends (at_ { r0 with a := 0x80 } 0x8000 [(0x8000, 0x0A)]) { r0 with z := true, c := true }
    0x8001 2 [] = true := by decide

/-- V43.3: LSR A to zero. -/
theorem test_lsr_acc_V43_3 : ends (at_ { r0 with a := 0x01 } 0x8000 [(0x8000, 0x4A)]) { r0 with z := true, c := true }
    0x8001 2 [] = true := by decide

/-- V43.4: LSR A. -/
theorem test_lsr_acc_V43_4 : ends (at_ { r0 with a := 0x02, c := true } 0x8000 [(0x8000, 0x4A)]) { r0 with a := 0x01 }
    0x8001 2 [] = true := by decide

/-- V43.5: ROL A carry in. -/
theorem test_rol_acc_V43_5 : ends (at_ { r0 with a := 0x40, c := true } 0x8000 [(0x8000, 0x2A)])
    { r0 with a := 0x81, n := true } 0x8001 2 [] = true := by decide

/-- V43.6: ROL A to zero. -/
theorem test_rol_acc_V43_6 : ends (at_ { r0 with a := 0x80, c := false } 0x8000 [(0x8000, 0x2A)])
    { r0 with z := true, c := true } 0x8001 2 [] = true := by decide

/-- V43.7: ROR A. -/
theorem test_ror_acc_V43_7 : ends (at_ { r0 with a := 0x03, c := false } 0x8000 [(0x8000, 0x6A)])
    { r0 with a := 0x01, c := true } 0x8001 2 [] = true := by decide

/-- V43.8: ROR A carry in. -/
theorem test_ror_acc_V43_8 : ends (at_ { r0 with a := 0x01, c := true } 0x8000 [(0x8000, 0x6A)])
    { r0 with a := 0x80, n := true, c := true } 0x8001 2 [] = true := by decide

/-- V43.10: INC zp wrap. -/
theorem test_inc_zp_V43_10 : ends (at_ r0 0x8000 [(0x0010, 0xFF), (0x8000, 0xE6), (0x8001, 0x10)])
    { r0 with z := true } 0x8002 5 [(0x0010, 0xFF), (0x0010, 0x00)] = true := by decide

/-- V43.11: DEC zp to zero. -/
theorem test_dec_zp_V43_11 : ends (at_ r0 0x8000 [(0x0010, 0x01), (0x8000, 0xC6), (0x8001, 0x10)])
    { r0 with z := true } 0x8002 5 [(0x0010, 0x01), (0x0010, 0x00)] = true := by decide

/-- V43.12: DEC zp wrap. -/
theorem test_dec_zp_V43_12 : ends (at_ r0 0x8000 [(0x0010, 0x00), (0x8000, 0xC6), (0x8001, 0x10)])
    { r0 with n := true } 0x8002 5 [(0x0010, 0x00), (0x0010, 0xFF)] = true := by decide

/-- V43.13: INC abs,X always 7. -/
theorem test_inc_abx_V43_13 : ends (at_ { r0 with x := 0x01 } 0x8000 [(0x2001, 0x7F), (0x8000, 0xFE), (0x8001, 0x00),
    (0x8002, 0x20)]) { r0 with x := 0x01, n := true } 0x8003 7 [(0x2001, 0x7F), (0x2001, 0x80)] = true := by decide

/-- V43.14: INX wrap. -/
theorem test_inx_V43_14 : ends (at_ { r0 with x := 0xFF } 0x8000 [(0x8000, 0xE8)]) { r0 with z := true } 0x8001 2 [] =
    true := by decide

/-- V43.15: INY. -/
theorem test_iny_V43_15 : ends (at_ { r0 with y := 0x7F } 0x8000 [(0x8000, 0xC8)]) { r0 with y := 0x80, n := true }
    0x8001 2 [] = true := by decide

/-- V43.16: DEX wrap. -/
theorem test_dex_V43_16 : ends (at_ { r0 with x := 0x00 } 0x8000 [(0x8000, 0xCA)]) { r0 with x := 0xFF, n := true }
    0x8001 2 [] = true := by decide

/-- V43.17: DEY to zero. -/
theorem test_dey_V43_17 : ends (at_ { r0 with y := 0x01 } 0x8000 [(0x8000, 0x88)]) { r0 with z := true } 0x8001 2 [] =
    true := by decide

/-- V44.1: CLC. -/
theorem test_clc_V44_1 : ends (at_ { r0 with c := true } 0x8000 [(0x8000, 0x18)]) r0 0x8001 2 [] = true := by decide

/-- V44.2: SEC. -/
theorem test_sec_V44_2 : ends (at_ r0 0x8000 [(0x8000, 0x38)]) { r0 with c := true } 0x8001 2 [] = true := by decide

/-- V44.3: CLI. -/
theorem test_cli_V44_3 : ends (at_ r0 0x8000 [(0x8000, 0x58)]) { r0 with i := false } 0x8001 2 [] = true := by decide

/-- V44.4: SEI. -/
theorem test_sei_V44_4 : ends (at_ { r0 with i := false } 0x8000 [(0x8000, 0x78)]) r0 0x8001 2 [] = true := by decide

/-- V44.5: CLV. -/
theorem test_clv_V44_5 : ends (at_ { r0 with v := true } 0x8000 [(0x8000, 0xB8)]) r0 0x8001 2 [] = true := by decide

/-- V44.6: CLD. -/
theorem test_cld_V44_6 : ends (at_ { r0 with d := true } 0x8000 [(0x8000, 0xD8)]) r0 0x8001 2 [] = true := by decide

/-- V44.7: SED. -/
theorem test_sed_V44_7 : ends (at_ r0 0x8000 [(0x8000, 0xF8)]) { r0 with d := true } 0x8001 2 [] = true := by decide

/-- V44.8: NOP. -/
theorem test_nop_V44_8 : ends (at_ r0 0x8000 [(0x8000, 0xEA)]) r0 0x8001 2 [] = true := by decide

/-- V45.1: BEQ taken same page. -/
theorem test_beq_V45_1 : ends (at_ { r0 with z := true } 0x8000 [(0x8000, 0xF0), (0x8001, 0x05)])
    { r0 with z := true } 0x8007 3 [] = true := by decide

/-- V45.2: BEQ not taken. -/
theorem test_beq_V45_2 : ends (at_ { r0 with z := false } 0x8000 [(0x8000, 0xF0), (0x8001, 0x05)]) r0 0x8002 2 [] =
    true := by decide

/-- V45.3: BNE taken, page cross. -/
theorem test_bne_V45_3 : ends (at_ { r0 with z := false } 0x80F0 [(0x80F0, 0xD0), (0x80F1, 0x10)]) r0 0x8102 4 [] =
    true := by decide

/-- V45.4: BCC backwards, page cross. -/
theorem test_bcc_V45_4 : ends (at_ { r0 with c := false } 0x8000 [(0x8000, 0x90), (0x8001, 0x80)]) r0 0x7F82 4 [] =
    true := by decide

/-- V45.5: BCS forward max. -/
theorem test_bcs_V45_5 : ends (at_ { r0 with c := true } 0x8000 [(0x8000, 0xB0), (0x8001, 0x7F)])
    { r0 with c := true } 0x8081 3 [] = true := by decide

/-- V45.6: BPL taken. -/
theorem test_bpl_V45_6 : ends (at_ { r0 with n := false } 0x8000 [(0x8000, 0x10), (0x8001, 0x02)]) r0 0x8004 3 [] =
    true := by decide

/-- V45.7: BMI not taken. -/
theorem test_bmi_V45_7 : ends (at_ { r0 with n := false } 0x8000 [(0x8000, 0x30), (0x8001, 0x02)]) r0 0x8002 2 [] =
    true := by decide

/-- V45.8: BVC taken. -/
theorem test_bvc_V45_8 : ends (at_ { r0 with v := false } 0x8000 [(0x8000, 0x50), (0x8001, 0x02)]) r0 0x8004 3 [] =
    true := by decide

/-- V45.9: BVS taken. -/
theorem test_bvs_V45_9 : ends (at_ { r0 with v := true } 0x8000 [(0x8000, 0x70), (0x8001, 0xFE)])
    { r0 with v := true } 0x8000 3 [] = true := by decide

/-- V45.10: branch at 0x80FE, PCnext page. -/
theorem test_bne_V45_10 : ends (at_ { r0 with z := false } 0x80FE [(0x80FE, 0xD0), (0x80FF, 0x01)]) r0 0x8101 3 [] =
    true := by decide

/-- V45.11: JMP abs. -/
theorem test_jmp_abs_V45_11 : ends (at_ r0 0x8000 [(0x8000, 0x4C), (0x8001, 0x00), (0x8002, 0x90)]) r0 0x9000 3 [] =
    true := by decide

/-- V45.12: JMP ind page bug. -/
theorem test_jmp_ind_V45_12 : ends (at_ r0 0x8000 [(0x0200, 0x90), (0x02FF, 0x00), (0x0300, 0x40), (0x8000, 0x6C),
    (0x8001, 0xFF), (0x8002, 0x02)]) r0 0x9000 5 [] = true := by decide

/-- V45.14: JSR. -/
theorem test_jsr_V45_14 : ends (at_ r0 0x8000 [(0x8000, 0x20), (0x8001, 0x00), (0x8002, 0x90)]) { r0 with s := 0xFB }
    0x9000 6 [(0x01FD, 0x80), (0x01FC, 0x02)] = true := by decide

/-- V45.15: RTS. -/
theorem test_rts_V45_15 : ends (at_ { r0 with s := 0xFB } 0x8000 [(0x01FC, 0x02), (0x01FD, 0x80), (0x8000, 0x60)]) r0
    0x8003 6 [] = true := by decide

/-- V45.16: RTI. -/
theorem test_rti_V45_16 : ends (at_ { r0 with s := 0xFA } 0x8000 [(0x01FB, 0xE3), (0x01FC, 0x34), (0x01FD, 0x12),
    (0x8000, 0x40)]) { r0 with n := true, v := true, i := false, z := true, c := true } 0x1234 6 [] = true := by
    decide

/-- V45.17: BRK. -/
theorem test_brk_V45_17 : ends (at_ { r0 with i := false } 0x8000 [(0xFFFE, 0x00), (0xFFFF, 0x90), (0x8000, 0x00),
    (0x8001, 0xEA)]) { r0 with s := 0xFA } 0x9000 7 [(0x01FD, 0x80), (0x01FC, 0x02), (0x01FB, 0x30)] = true := by
    decide

/-- V45.18: BRK keeps D. -/
theorem test_brk_V45_18 : ends (at_ { r0 with i := false, d := true } 0x8000 [(0xFFFE, 0x00), (0xFFFF, 0x90),
    (0x8000, 0x00), (0x8001, 0xEA)]) { r0 with s := 0xFA, d := true } 0x9000 7 [(0x01FD, 0x80), (0x01FC, 0x02),
    (0x01FB, 0x38)] = true := by decide

/-- V46.1: PHA. -/
theorem test_pha_V46_1 : ends (at_ { r0 with a := 0x42 } 0x8000 [(0x8000, 0x48)]) { r0 with a := 0x42, s := 0xFC }
    0x8001 3 [(0x01FD, 0x42)] = true := by decide

/-- V46.2: PHA at S=0 wraps. -/
theorem test_pha_V46_2 : ends (at_ { r0 with a := 0x42, s := 0x00 } 0x8000 [(0x8000, 0x48)])
    { r0 with a := 0x42, s := 0xFF } 0x8001 3 [(0x0100, 0x42)] = true := by decide

/-- V46.3: PHP. -/
theorem test_php_V46_3 : ends (at_ { r0 with n := true, c := true, i := false } 0x8000 [(0x8000, 0x08)])
    { r0 with s := 0xFC, n := true, i := false, c := true } 0x8001 3 [(0x01FD, 0xB1)] = true := by decide

/-- V46.4: PHP after reset. -/
theorem test_php_V46_4 : ends (at_ r0 0x8000 [(0x8000, 0x08)]) { r0 with s := 0xFC } 0x8001 3 [(0x01FD, 0x34)] = true
    := by decide

/-- V46.5: PLA zero. -/
theorem test_pla_V46_5 : ends (at_ { r0 with a := 0x55, s := 0xFC } 0x8000 [(0x01FD, 0x00), (0x8000, 0x68)])
    { r0 with z := true } 0x8001 4 [] = true := by decide

/-- V46.6: PLA at S=0xFF wraps. -/
theorem test_pla_V46_6 : ends (at_ { r0 with s := 0xFF } 0x8000 [(0x0100, 0x80), (0x8000, 0x68)])
    { r0 with a := 0x80, s := 0x00, n := true } 0x8001 4 [] = true := by decide

/-- V46.7: PLP all ones. -/
theorem test_plp_V46_7 : ends (at_ { r0 with s := 0xFC } 0x8000 [(0x01FD, 0xFF), (0x8000, 0x28)])
    { r0 with n := true, v := true, d := true, z := true, c := true } 0x8001 4 [] = true := by decide

/-- V46.8: PLP discards B and bit 5. -/
theorem test_plp_V46_8 : ends (at_ { r0 with s := 0xFC, i := false } 0x8000 [(0x01FD, 0x30), (0x8000, 0x28)])
    { r0 with i := false } 0x8001 4 [] = true := by decide

/-- V47.1: SLO zp. -/
theorem test_slo_zp_V47_1 : ends (at_ { r0 with a := 0x01 } 0x8000 [(0x0010, 0x81), (0x8000, 0x07), (0x8001, 0x10)])
    { r0 with a := 0x03, c := true } 0x8002 5 [(0x0010, 0x81), (0x0010, 0x02)] = true := by decide

/-- V47.2: SLO (zp),Y always 8. -/
theorem test_slo_izy_V47_2 : ends (at_ { r0 with a := 0x00, y := 0x01 } 0x8000 [(0x0020, 0xFF), (0x0021, 0x20),
    (0x2100, 0x40), (0x8000, 0x13), (0x8001, 0x20)]) { r0 with a := 0x80, y := 0x01, n := true } 0x8002 8
    [(0x2100, 0x40), (0x2100, 0x80)] = true := by decide

/-- V47.3: RLA zp. -/
theorem test_rla_zp_V47_3 : ends (at_ { r0 with a := 0xFF, c := true } 0x8000 [(0x0010, 0x80), (0x8000, 0x27),
    (0x8001, 0x10)]) { r0 with a := 0x01, c := true } 0x8002 5 [(0x0010, 0x80), (0x0010, 0x01)] = true := by decide

/-- V47.4: SRE zp. -/
theorem test_sre_zp_V47_4 : ends (at_ { r0 with a := 0x80 } 0x8000 [(0x0010, 0x03), (0x8000, 0x47), (0x8001, 0x10)])
    { r0 with a := 0x81, n := true, c := true } 0x8002 5 [(0x0010, 0x03), (0x0010, 0x01)] = true := by decide

/-- V47.5: RRA zp. -/
theorem test_rra_zp_V47_5 : ends (at_ { r0 with a := 0x10, c := false } 0x8000 [(0x0010, 0x03), (0x8000, 0x67),
    (0x8001, 0x10)]) { r0 with a := 0x12 } 0x8002 5 [(0x0010, 0x03), (0x0010, 0x01)] = true := by decide

/-- V47.6: SAX zp. -/
theorem test_sax_zp_V47_6 : ends (at_ { r0 with a := 0xF0, x := 0x3C } 0x8000 [(0x8000, 0x87), (0x8001, 0x10)])
    { r0 with a := 0xF0, x := 0x3C } 0x8002 3 [(0x0010, 0x30)] = true := by decide

/-- V47.7: SAX zp,Y. -/
theorem test_sax_zpy_V47_7 : ends (at_ { r0 with a := 0xFF, x := 0x0F, y := 0x02 } 0x8000 [(0x8000, 0x97),
    (0x8001, 0xFF)]) { r0 with a := 0xFF, x := 0x0F, y := 0x02 } 0x8002 4 [(0x0001, 0x0F)] = true := by decide

/-- V47.8: LAX zp. -/
theorem test_lax_zp_V47_8 : ends (at_ r0 0x8000 [(0x0010, 0x80), (0x8000, 0xA7), (0x8001, 0x10)])
    { r0 with a := 0x80, x := 0x80, n := true } 0x8002 3 [] = true := by decide

/-- V47.9: LAX abs,Y page cross. -/
theorem test_lax_aby_V47_9 : ends (at_ { r0 with y := 0x01 } 0x8000 [(0x1100, 0x00), (0x8000, 0xBF), (0x8001, 0xFF),
    (0x8002, 0x10)]) { r0 with y := 0x01, z := true } 0x8003 5 [] = true := by decide

/-- V47.10: DCP zp. -/
theorem test_dcp_zp_V47_10 : ends (at_ { r0 with a := 0x05 } 0x8000 [(0x0010, 0x06), (0x8000, 0xC7), (0x8001, 0x10)])
    { r0 with a := 0x05, z := true, c := true } 0x8002 5 [(0x0010, 0x06), (0x0010, 0x05)] = true := by decide

/-- V47.11: DCP abs,Y always 7. -/
theorem test_dcp_aby_V47_11 : ends (at_ { r0 with a := 0x00, y := 0x05 } 0x8000 [(0x2005, 0x00), (0x8000, 0xDB),
    (0x8001, 0x00), (0x8002, 0x20)]) { r0 with y := 0x05 } 0x8003 7 [(0x2005, 0x00), (0x2005, 0xFF)] = true := by
    decide

/-- V47.12: ISC zp. -/
theorem test_isc_zp_V47_12 : ends (at_ { r0 with a := 0x10, c := true } 0x8000 [(0x0010, 0x0F), (0x8000, 0xE7),
    (0x8001, 0x10)]) { r0 with z := true, c := true } 0x8002 5 [(0x0010, 0x0F), (0x0010, 0x10)] = true := by decide

/-- V47.13: ANC. -/
theorem test_anc_V47_13 : ends (at_ { r0 with a := 0xFF } 0x8000 [(0x8000, 0x0B), (0x8001, 0x80)])
    { r0 with a := 0x80, n := true, c := true } 0x8002 2 [] = true := by decide

/-- V47.14: ALR. -/
theorem test_alr_V47_14 : ends (at_ { r0 with a := 0xFF } 0x8000 [(0x8000, 0x4B), (0x8001, 0x03)])
    { r0 with a := 0x01, c := true } 0x8002 2 [] = true := by decide

/-- V47.15: ARR C=1. -/
theorem test_arr_V47_15 : ends (at_ { r0 with a := 0xFF, c := true } 0x8000 [(0x8000, 0x6B), (0x8001, 0xFF)])
    { r0 with a := 0xFF, n := true, c := true } 0x8002 2 [] = true := by decide

/-- V47.16: ARR C=0. -/
theorem test_arr_V47_16 : ends (at_ { r0 with a := 0xFF, c := false } 0x8000 [(0x8000, 0x6B), (0x8001, 0x40)])
    { r0 with a := 0x20, v := true } 0x8002 2 [] = true := by decide

/-- V47.17: ANE (P_MAGIC=0xFF). -/
theorem test_ane_V47_17 : ends (at_ { r0 with x := 0x0F } 0x8000 [(0x8000, 0x8B), (0x8001, 0x3C)])
    { r0 with a := 0x0C, x := 0x0F } 0x8002 2 [] = true := by decide

/-- V47.18: LXA (P_MAGIC=0xFF). -/
theorem test_lxa_V47_18 : ends (at_ { r0 with a := 0x55 } 0x8000 [(0x8000, 0xAB), (0x8001, 0x00)])
    { r0 with z := true } 0x8002 2 [] = true := by decide

/-- V47.19: SBX. -/
theorem test_sbx_V47_19 : ends (at_ { r0 with a := 0xFF, x := 0x10 } 0x8000 [(0x8000, 0xCB), (0x8001, 0x01)])
    { r0 with a := 0xFF, x := 0x0F, c := true } 0x8002 2 [] = true := by decide

/-- V47.20: SBX borrow. -/
theorem test_sbx_V47_20 : ends (at_ { r0 with a := 0x0F, x := 0xFF } 0x8000 [(0x8000, 0xCB), (0x8001, 0x20)])
    { r0 with a := 0x0F, x := 0xEF, n := true } 0x8002 2 [] = true := by decide

/-- V47.21: USBC. -/
theorem test_usbc_V47_21 : ends (at_ { r0 with a := 0x50, c := true } 0x8000 [(0x8000, 0xEB), (0x8001, 0xF0)])
    { r0 with a := 0x60 } 0x8002 2 [] = true := by decide

/-- V47.22: SHA abs,Y no cross. -/
theorem test_sha_aby_V47_22 : ends (at_ { r0 with a := 0xFF, x := 0xFF, y := 0x01 } 0x8000 [(0x8000, 0x9F),
    (0x8001, 0x00), (0x8002, 0x12)]) { r0 with a := 0xFF, x := 0xFF, y := 0x01 } 0x8003 5 [(0x1201, 0x13)] = true :=
    by decide

/-- V47.23: SHX abs,Y cross. -/
theorem test_shx_V47_23 : ends (at_ { r0 with x := 0x0F, y := 0x10 } 0x8000 [(0x8000, 0x9E), (0x8001, 0xF0),
    (0x8002, 0x20)]) { r0 with x := 0x0F, y := 0x10 } 0x8003 5 [(0x0100, 0x01)] = true := by decide

/-- V47.24: SHY abs,X no cross. -/
theorem test_shy_V47_24 : ends (at_ { r0 with y := 0x0F, x := 0x00 } 0x8000 [(0x8000, 0x9C), (0x8001, 0x34),
    (0x8002, 0x12)]) { r0 with y := 0x0F } 0x8003 5 [(0x1234, 0x03)] = true := by decide

/-- V47.25: TAS abs,Y. -/
theorem test_tas_V47_25 : ends (at_ { r0 with a := 0xF0, x := 0x3F, y := 0x00 } 0x8000 [(0x8000, 0x9B),
    (0x8001, 0x00), (0x8002, 0x10)]) { r0 with a := 0xF0, x := 0x3F, s := 0x30 } 0x8003 5 [(0x1000, 0x10)] = true :=
    by decide

/-- V47.26: LAS abs,Y. -/
theorem test_las_V47_26 : ends (at_ { r0 with s := 0xFD, y := 0x00 } 0x8000 [(0x1000, 0x0F), (0x8000, 0xBB),
    (0x8001, 0x00), (0x8002, 0x10)]) { r0 with a := 0x0D, x := 0x0D, s := 0x0D } 0x8003 4 [] = true := by decide

/-- V47.27: NOP imp (0x1A). -/
theorem test_nop_imp_V47_27 : ends (at_ r0 0x8000 [(0x8000, 0x1A)]) r0 0x8001 2 [] = true := by decide

/-- V47.28: NOP imm (0x80). -/
theorem test_nop_imm_V47_28 : ends (at_ r0 0x8000 [(0x8000, 0x80), (0x8001, 0x55)]) r0 0x8002 2 [] = true := by decide

/-- V47.29: NOP zp (0x04). -/
theorem test_nop_zp_V47_29 : ends (at_ r0 0x8000 [(0x8000, 0x04), (0x8001, 0x10)]) r0 0x8002 3 [] = true := by decide

/-- V47.30: NOP abs,X cross (0x1C). -/
theorem test_nop_abx_V47_30 : ends (at_ { r0 with x := 0x01 } 0x8000 [(0x8000, 0x1C), (0x8001, 0xFF), (0x8002, 0x20)])
    { r0 with x := 0x01 } 0x8003 5 [] = true := by decide

/-- V47.31: NOP abs (0x0C). -/
theorem test_nop_abs_V47_31 : ends (at_ r0 0x8000 [(0x8000, 0x0C), (0x8001, 0x00), (0x8002, 0x20)]) r0 0x8003 4 [] =
    true := by decide

/-- JAM (95_test_vectors §3.8, 47_unofficial R190): the opcode fetch, and then nothing. -/
theorem test_jam : thenIs (step (at_ r0 0x8000 [(0x8000, 0x02)])) (fun t => t.t == 1 && t.pc == 0x8001 &&
    t.regs == r0 && t.bus.trace.length == 1 && thenIs (tick t) (fun u => u == t)) = true := by decide

/-! ## The bus traces of 95_test_vectors §2 -/

/-- The trace of T_IMP. -/
theorem test_trace_t_imp : traceIs (at_ r0 0x8000 [(0x8000, 0xEA)]) [(1, false, 0x8000, 0xEA),
    (2, false, 0x8001, 0x00)] = true := by decide

/-- The trace of T_ZPI_R. -/
theorem test_trace_t_zpi_r : traceIs (at_ { r0 with x := 0x20 } 0x8000 [(0x0010, 0x42), (0x8000, 0xB5),
    (0x8001, 0xF0)]) [(1, false, 0x8000, 0xB5), (2, false, 0x8001, 0xF0), (3, false, 0x00F0, 0x00),
    (4, false, 0x0010, 0x42)] = true := by decide

/-- The trace of T_ZPI_W. -/
theorem test_trace_t_zpi_w : traceIs (at_ { r0 with x := 0x20, a := 0x42 } 0x8000 [(0x8000, 0x95), (0x8001, 0xF0)])
    [(1, false, 0x8000, 0x95), (2, false, 0x8001, 0xF0), (3, false, 0x00F0, 0x00), (4, true, 0x0010, 0x42)] = true :=
    by decide

/-- The trace of T_ZPI_M. -/
theorem test_trace_t_zpi_m : traceIs (at_ { r0 with x := 0x20 } 0x8000 [(0x0010, 0x41), (0x8000, 0xF6),
    (0x8001, 0xF0)]) [(1, false, 0x8000, 0xF6), (2, false, 0x8001, 0xF0), (3, false, 0x00F0, 0x00),
    (4, false, 0x0010, 0x41), (5, true, 0x0010, 0x41), (6, true, 0x0010, 0x42)] = true := by decide

/-- The trace of T_ABI_R cross. -/
theorem test_trace_t_abi_r_cross : traceIs (at_ { r0 with x := 0x02 } 0x8000 [(0x1101, 0x42), (0x8000, 0xBD),
    (0x8001, 0xFF), (0x8002, 0x10)]) [(1, false, 0x8000, 0xBD), (2, false, 0x8001, 0xFF), (3, false, 0x8002, 0x10),
    (4, false, 0x1001, 0x00), (5, false, 0x1101, 0x42)] = true := by decide

/-- The trace of T_ABI_W. -/
theorem test_trace_t_abi_w : traceIs (at_ { r0 with x := 0x02, a := 0x42 } 0x8000 [(0x8000, 0x9D), (0x8001, 0x00),
    (0x8002, 0x10)]) [(1, false, 0x8000, 0x9D), (2, false, 0x8001, 0x00), (3, false, 0x8002, 0x10),
    (4, false, 0x1002, 0x00), (5, true, 0x1002, 0x42)] = true := by decide

/-- The trace of T_ABI_M. -/
theorem test_trace_t_abi_m : traceIs (at_ { r0 with x := 0x02 } 0x8000 [(0x1101, 0x41), (0x8000, 0xFE),
    (0x8001, 0xFF), (0x8002, 0x10)]) [(1, false, 0x8000, 0xFE), (2, false, 0x8001, 0xFF), (3, false, 0x8002, 0x10),
    (4, false, 0x1001, 0x00), (5, false, 0x1101, 0x41), (6, true, 0x1101, 0x41), (7, true, 0x1101, 0x42)] = true := by
    decide

/-- The trace of T_IZX_M. -/
theorem test_trace_t_izx_m : traceIs (at_ { r0 with x := 0x04 } 0x8000 [(0x0014, 0x34), (0x0015, 0x12),
    (0x1234, 0x41), (0x8000, 0x03), (0x8001, 0x10)]) [(1, false, 0x8000, 0x03), (2, false, 0x8001, 0x10),
    (3, false, 0x0010, 0x00), (4, false, 0x0014, 0x34), (5, false, 0x0015, 0x12), (6, false, 0x1234, 0x41),
    (7, true, 0x1234, 0x41), (8, true, 0x1234, 0x82)] = true := by decide

/-- The trace of T_IZY_R cross. -/
theorem test_trace_t_izy_r_cross : traceIs (at_ { r0 with y := 0xD0 } 0x8000 [(0x0010, 0x34), (0x0011, 0x12),
    (0x1304, 0x42), (0x8000, 0xB1), (0x8001, 0x10)]) [(1, false, 0x8000, 0xB1), (2, false, 0x8001, 0x10),
    (3, false, 0x0010, 0x34), (4, false, 0x0011, 0x12), (5, false, 0x1204, 0x00), (6, false, 0x1304, 0x42)] = true :=
    by decide

/-- The trace of T_IZY_W. -/
theorem test_trace_t_izy_w : traceIs (at_ { r0 with y := 0x01, a := 0x42 } 0x8000 [(0x0010, 0x34), (0x0011, 0x12),
    (0x8000, 0x91), (0x8001, 0x10)]) [(1, false, 0x8000, 0x91), (2, false, 0x8001, 0x10), (3, false, 0x0010, 0x34),
    (4, false, 0x0011, 0x12), (5, false, 0x1235, 0x00), (6, true, 0x1235, 0x42)] = true := by decide

/-- The trace of T_REL not taken. -/
theorem test_trace_t_rel_not_taken : traceIs (at_ { r0 with z := true } 0x8000 [(0x8000, 0xD0), (0x8001, 0x10)])
    [(1, false, 0x8000, 0xD0), (2, false, 0x8001, 0x10)] = true := by decide

/-- The trace of T_JSR. -/
theorem test_trace_t_jsr : traceIs (at_ r0 0x8000 [(0x8000, 0x20), (0x8001, 0x34), (0x8002, 0x12)])
    [(1, false, 0x8000, 0x20), (2, false, 0x8001, 0x34), (3, false, 0x01FD, 0x00), (4, true, 0x01FD, 0x80),
    (5, true, 0x01FC, 0x02), (6, false, 0x8002, 0x12)] = true := by decide

/-- The trace of T_RTS. -/
theorem test_trace_t_rts : traceIs (at_ { r0 with s := 0xFB } 0x8000 [(0x01FC, 0x02), (0x01FD, 0x90), (0x8000, 0x60)])
    [(1, false, 0x8000, 0x60), (2, false, 0x8001, 0x00), (3, false, 0x01FB, 0x00), (4, false, 0x01FC, 0x02),
    (5, false, 0x01FD, 0x90), (6, false, 0x9002, 0x00)] = true := by decide

/-- The trace of T_RTI. -/
theorem test_trace_t_rti : traceIs (at_ { r0 with s := 0xFA } 0x8000 [(0x01FB, 0x20), (0x01FC, 0x34), (0x01FD, 0x12),
    (0x8000, 0x40)]) [(1, false, 0x8000, 0x40), (2, false, 0x8001, 0x00), (3, false, 0x01FA, 0x00),
    (4, false, 0x01FB, 0x20), (5, false, 0x01FC, 0x34), (6, false, 0x01FD, 0x12)] = true := by decide

/-! ## Memory and the bus (20_memory) -/

/-- A write of what an unlisted address reads as removes the entry. -/
theorem test_memory_canonical : Memory.write [(0x10, 0x01), (0x20, 0x02)] 0x10 0x00 = [(0x20, 0x02)] ∧
    Memory.write [(0x10, 0x01)] 0x08 0x05 = [(0x08, 0x05), (0x10, 0x01)] := by decide

/-- A store into ROM is made on the bus and changes nothing (R41). -/
theorem test_rom_keeps_its_byte : thenIs (step
    { at_ { r0 with a := 0x42 } 0x8000 [(0x10, 0x07), (0x8000, 0x85), (0x8001, 0x10)] with
      bus := { mem := [(0x10, 0x07), (0x8000, 0x85), (0x8001, 0x10)]
               regions := [{ base := 0, size := 0x100, kind := .rom }], trace := [] } })
    (fun t => t.peek 0x10 == 0x07 && t.bus.trace.length == 3) = true := by decide

/-! ## Interrupts (95_test_vectors §4) and reset (§5) -/

/-- I1, the entry: the pushed status is 0x20. -/
theorem test_irq_entry_I1 : ends
    { at_ { r0 with i := false } 0x8001 [(0xFFFF, 0x90)] with intRequested := true, irqAsserted := [1] }
    { r0 with s := 0xFA } 0x9000 7 [(0x01FD, 0x80), (0x01FC, 0x01), (0x01FB, 0x20)] = true := by decide

/-- I1, the poll of the NOP before it. -/
theorem test_irq_poll_I1 : thenIs (step { at_ { r0 with i := false } 0x8000 [(0x8000, 0xEA)] with irqAsserted := [1] })
    (fun t => t.intRequested) = true := by decide

/-- I2b, the NMI entry: not masked, the pushed status is 0x24, the NMI consumed. -/
theorem test_nmi_entry_I2b : ends
    { at_ r0 0x8001 [(0xFFFB, 0xA0)] with intRequested := true, nmiPending := true, nmiLine := false }
    { r0 with s := 0xFA } 0xA000 7 [(0x01FD, 0x80), (0x01FC, 0x01), (0x01FB, 0x24)] = true := by decide

/-- I2 and I2c: one latched NMI for a falling edge; a level held low makes no new one. -/
theorem test_nmi_edge_I2 : ((State.reset.setNmiLine false).setNmiLine true).nmiPending = true ∧
    ({ State.reset.setNmiLine false with nmiPending := false }.setNmiLine false).nmiPending = false := by decide

/-- I3: an IRQ is masked while I is set. -/
theorem test_irq_masked_I3 : thenIs (step { at_ r0 0x8000 [(0x8000, 0xEA)] with irqAsserted := [1] })
    (fun t => !t.intRequested) = true := by decide

/-- I4: the sources are a set. -/
theorem test_irq_set_I4 :
    (((State.reset.request 1).request 2).request 1).irqAsserted = [1, 2] ∧
    ((((State.reset.request 1).request 2).request 1).acknowledge 1).irqAsserted = [2] := by decide

/-- I5 and I6: CLI and SEI poll with the I before them. -/
theorem test_cli_sei_I5_I6 :
    thenIs (step { at_ r0 0x8000 [(0x8000, 0x58)] with irqAsserted := [1] })
      (fun t => !t.intRequested && !t.regs.i) = true ∧
    thenIs (step { at_ { r0 with i := false } 0x8000 [(0x8000, 0x78)] with irqAsserted := [1] })
      (fun t => t.intRequested && t.regs.i) = true := by decide

/-- I8: an NMI that comes in before cycle 5 of a software BRK takes its vector; the pushed status keeps B = 1. -/
theorem test_nmi_during_brk_I8 : thenIs
    (ticks 3 (at_ { r0 with i := false } 0x8000 [(0xFFFB, 0xA0), (0xFFFF, 0x90)]))
    (fun s => thenIs (step (s.setNmiLine false))
      (fun t => t.pc == 0xA000 && !t.nmiPending && t.peek 0x01FB == 0x30)) = true := by decide

/-- I9: one that comes in after cycle 5 does not, and BRK's own poll sees it. -/
theorem test_nmi_after_brk_I9 : thenIs
    (ticks 5 (at_ { r0 with i := false } 0x8000 [(0xFFFB, 0xA0), (0xFFFF, 0x90)]))
    (fun s => thenIs (step (s.setNmiLine false))
      (fun t => t.pc == 0x9000 && t.nmiPending && t.intRequested)) = true := by decide

/-- I10: a taken branch polls at cycle 2 only. -/
theorem test_irq_during_branch_I10 : thenIs
    (ticks 2 (at_ { r0 with i := false, z := true } 0x8000 [(0x8000, 0xF0)]))
    (fun s => thenIs (step (s.request 1)) (fun t => t.pc == 0x8002 && !t.intRequested)) = true := by decide

/-- I11: RTI polls with the I it restores. -/
theorem test_rti_I11 : thenIs (step
    { at_ { r0 with s := 0xFA } 0x8000 [(0x01FB, 0x20), (0x01FD, 0x81), (0x8000, 0x40)] with irqAsserted := [1] })
    (fun t => t.pc == 0x8100 && t.intRequested) = true := by decide

/-- Z1: what reset leaves. -/
theorem test_reset_Z1 :
    let s := State.resetEntry
      { at_ { r0 with a := 0x55, s := 0x10, i := false } 0x8000 [(0xFFFC, 0x34), (0xFFFD, 0x12)] with
        nmiPending := true, intRequested := true }
    s.pc = 0x1234 ∧ s.regs = { r0 with a := 0x55 } ∧ s.t = 0 ∧ s.nmiPending = false ∧ s.intRequested = false := by
  decide

/-- Z2: reset lets a jammed core run again. -/
theorem test_reset_Z2 : thenIs (step (at_ r0 0x8000 [(0x8000, 0x02), (0xFFFC, 0x01), (0xFFFD, 0x80)]))
    (fun t => t.resetEntry.pc == 0x8001 && t.resetEntry.t == 0) = true := by decide

/-- The state right after reset is power-on with the reset entry point, over an empty bus. -/
theorem test_reset_is_power_on :
    State.reset = powerOn Config.defaultParams .zero { mem := [], regions := [], trace := [] } := by decide

/-! ## Witnesses: each obligation's premises are met

`here i` is a state in which the instruction `i` stands at PC, over RAM; one theorem shows that it meets `Ready` for every
instruction, so the witnesses below only name their instructions. -/

/-- These bytes at consecutive addresses. -/
def bytesFrom : Nat → List Byte → Memory
  | _, [] => []
  | k, b :: bs => Memory.write (bytesFrom (k + 1) bs) k b

/-- The instruction at 0x8000 over RAM, about to be fetched. -/
def here (i : Instr) (r : Regs := r0) : State :=
  { State.reset with
    regs := r, pc := 0x8000, bus := { mem := bytesFrom 0x8000 (encode i), regions := [], trace := [] } }

theorem plain_here (i : Instr) (r : Regs) (a : Word) : (here i r).PlainAt a := by
  show RegionKind.ram ≠ _
  decide

theorem wf_bytesFrom : ∀ (k : Nat) (bs : List Byte), k + bs.length ≤ 65536 → (bytesFrom k bs).wf = true
  | _, [], _ => rfl
  | k, b :: bs, h => by
    rw [List.length_cons] at h
    exact Memory.wf_write (by omega) (wf_bytesFrom (k + 1) bs (by omega))

theorem read_bytesFrom : ∀ (k n : Nat) (bs : List Byte) (h : n < bs.length), k + bs.length ≤ 65536 →
    (bytesFrom k bs).read (k + n) = bs[n]
  | k, n, b :: bs, h, hk => by
    rw [List.length_cons] at hk
    rw [bytesFrom, Memory.read_write (wf_bytesFrom (k + 1) bs (by omega))]
    cases n with
    | zero => simp
    | succ n =>
      rw [if_neg (by omega), show k + (n + 1) = k + 1 + n by omega]
      exact read_bytesFrom (k + 1) n bs (by simpa using h) (by omega)

theorem bytesAt_of (s : State) : ∀ (a : Word) (bs : List Byte),
    (∀ n (h : n < bs.length), s.PlainAt (a + BitVec.ofNat 16 n) ∧ s.peek (a + BitVec.ofNat 16 n) = bs[n]) →
    BytesAt s a bs
  | _, [], _ => trivial
  | a, b :: bs, h => by
    have h0 := h 0 (by simp)
    simp only [BitVec.add_zero, List.getElem_cons_zero] at h0
    refine ⟨h0.1, h0.2, bytesAt_of s (a + 1) bs fun n hn => ?_⟩
    have := h (n + 1) (by simpa using hn)
    rw [show a + 1 + BitVec.ofNat 16 n = a + BitVec.ofNat 16 (n + 1) by
      rw [BitVec.add_assoc]; congr 1; bv_omega]
    simpa using this

theorem encode_length (i : Instr) : (encode i).length ≤ 3 := by
  rw [encode, List.length_cons]
  generalize i.operand = o
  cases o <;> simp [Operand.bytes]

/-- Every instruction can be ready. -/
theorem ready_here (i : Instr) (r : Regs) : Ready i (here i r) := by
  have hl := encode_length i
  refine ⟨rfl, wf_bytesFrom _ _ (by omega), bytesAt_of _ _ _ fun n hn => ⟨plain_here i r _, ?_⟩, ?_⟩
  · rw [← read_bytesFrom 0x8000 n (encode i) hn (by omega)]
    show (bytesFrom 0x8000 (encode i)).read _ = _
    congr 1
    show (0x8000#16 + BitVec.ofNat 16 n).toNat = _
    bv_omega
  · unfold PointerPlain
    split <;> first | exact ⟨plain_here i r _, plain_here i r _⟩ | trivial

/-- A well-formed instruction of this mnemonic is ready with plain operand bytes. -/
def ReadyData (m : Mnemonic) : Prop :=
  ∃ i s, i.wellFormed = true ∧ Ready i s ∧ DataPlain i.operand s ∧ i.mnemonic = m

theorem readyData (i : Instr) (h : i.wellFormed = true) : ReadyData i.mnemonic :=
  ⟨i, here i, h, ready_here i r0, fun a _ => plain_here i r0 a, rfl⟩

/-- A well-formed instruction of this mnemonic is ready with a plain operand in memory. -/
def ReadyAt (m : Mnemonic) : Prop :=
  ∃ i s a, i.wellFormed = true ∧ Ready i s ∧ i.operand.effAddr s = some a ∧ s.PlainAt a ∧ i.mnemonic = m

theorem readyAt (i : Instr) (a : Word) (h : i.wellFormed = true) (ha : i.operand.effAddr (here i) = some a) :
    ReadyAt i.mnemonic :=
  ⟨i, here i, a, h, ready_here i r0, ha, plain_here i r0 a, rfl⟩

/-- A device at 0x2000 to 0x2FFF and ROM at 0x3000 to 0x3FFF. -/
def mixed : List Region := [⟨0x2000, 0x1000, .device⟩, ⟨0x3000, 0x1000, .rom⟩]

/-- As `here`, over that map. -/
def hereMixed (i : Instr) : State :=
  { here i with
    bus := { (here i).bus with regions := mixed } }

theorem code_hereMixed (i : Instr) (n : Nat) (h : n < 3) : (hereMixed i).PlainAt (0x8000 + BitVec.ofNat 16 n) := by
  show Bus.kindAt { mem := [], regions := mixed, trace := [] } _ ≠ _
  obtain rfl | rfl | rfl : n = 0 ∨ n = 1 ∨ n = 2 := by omega
  all_goals decide

/-- An instruction whose pointer is no device's is ready over that map too. -/
theorem ready_hereMixed (i : Instr) (hp : PointerPlain i.operand (hereMixed i)) : Ready i (hereMixed i) := by
  have hl := encode_length i
  refine ⟨rfl, wf_bytesFrom _ _ (by omega), bytesAt_of _ _ _ fun n hn => ?_, hp⟩
  have hc := code_hereMixed i n (by omega)
  refine ⟨hc, ?_⟩
  rw [← read_bytesFrom 0x8000 n (encode i) hn (by omega)]
  have hm : (hereMixed i).peek (0x8000 + BitVec.ofNat 16 n) =
      (bytesFrom 0x8000 (encode i)).read (0x8000 + BitVec.ofNat 16 n : Word).toNat :=
    Bus.answer_plain hc
  refine hm.trans (congrArg _ ?_)
  bv_omega

/-- A well-formed instruction of this mnemonic is ready with this kind of memory at its operand. -/
def ReadyOn (k : RegionKind) (m : Mnemonic) : Prop :=
  ∃ i s a, i.wellFormed = true ∧ Ready i s ∧ i.operand.effAddr s = some a ∧ s.bus.kindAt a = k ∧ i.mnemonic = m

theorem readyOn (i : Instr) (a : Word) (k : RegionKind) (h : i.wellFormed = true)
    (hp : PointerPlain i.operand (hereMixed i)) (ha : i.operand.effAddr (hereMixed i) = some a)
    (hk : (hereMixed i).bus.kindAt a = k) : ReadyOn k i.mnemonic :=
  ⟨i, hereMixed i, a, h, ready_hereMixed i hp, ha, hk, rfl⟩

/-- The instruction is ready with a device at its operand and, elsewhere, with ROM there. -/
abbrev ReadyOnBoth (m : Mnemonic) : Prop := ReadyOn .device m ∧ ReadyOn .rom m

/-- A state whose stack page is this kind of memory. -/
def stackOn (k : RegionKind) (r : Regs) : State :=
  { at_ r 0x8000 [] with bus := { mem := [], regions := [⟨0x0100, 0x0100, k⟩], trace := [] } }

/-- RAM everywhere: no address is a device's. -/
theorem plain_at (r : Regs) (pc : Word) (cells : Memory) (a : Word) : (at_ r pc cells).PlainAt a := by
  show RegionKind.ram ≠ _
  decide

theorem witness_AdcAddsWithCarryInBinary : ReadyData .adc := readyData (.adcAbx 0x80FF) rfl

theorem witness_SbcSubtractsWithInvertedBorrow : ReadyData .sbc ∧ ReadyData .usbc := 
  ⟨readyData (.sbcIzy 0xFF) rfl,
   readyData (.usbc 0x00) rfl⟩

theorem witness_LogicOpsWriteAAndNZ : ReadyData .and ∧ ReadyData .ora ∧ ReadyData .eor := 
  ⟨readyData (.andImm 0xFF) rfl,
   readyData (.oraZpx 0xFF) rfl,
   readyData (.eorIzx 0x00) rfl⟩

theorem witness_ComparesAndBitOnlyWriteFlags : ReadyData .cmp ∧ ReadyData .cpx ∧ ReadyData .cpy ∧ ReadyData .bit := 
  ⟨readyData (.cmpAby 0xFFFF) rfl,
   readyData (.cpxImm 0xFF) rfl,
   readyData (.cpyZp 0x00) rfl,
   readyData (.bitAbs 0xFFFF) rfl⟩

theorem witness_LoadsWriteRegisterAndNZ : ReadyData .lda ∧ ReadyData .ldx ∧ ReadyData .ldy := 
  ⟨readyData (.ldaIzx 0xFF) rfl,
   readyData (.ldxZpy 0xFF) rfl,
   readyData (.ldyAbx 0x00FF) rfl⟩

theorem witness_LaxAndLasLoadSeveralRegisters : ReadyData .lax ∧ ReadyData .las := 
  ⟨readyData (.laxIzy 0xFF) rfl,
   readyData (.las 0xFFFF) rfl⟩

/-- RAM, a device and ROM at the operand. -/
theorem witness_StoresWriteOnlyTheirByte : 
    ReadyAt .sta ∧ ReadyAt .stx ∧ ReadyAt .sty ∧ ReadyAt .sax ∧
    ReadyOnBoth .sta ∧ ReadyOnBoth .stx ∧ ReadyOnBoth .sty ∧ ReadyOnBoth .sax := 
  ⟨readyAt (.staAbs 0xFFFF) 0xFFFF rfl rfl,
   readyAt (.stxZpy 0xFF) 0x00FF rfl rfl,
   readyAt (.styZp 0x00) 0x0000 rfl rfl,
   readyAt (.saxZp 0xFF) 0x00FF rfl rfl,
   ⟨readyOn (.staAbs 0x2000) 0x2000 .device rfl trivial rfl rfl,
    readyOn (.staAbs 0x3FFF) 0x3FFF .rom rfl trivial rfl rfl⟩,
   ⟨readyOn (.stxAbs 0x2000) 0x2000 .device rfl trivial rfl rfl,
    readyOn (.stxAbs 0x3FFF) 0x3FFF .rom rfl trivial rfl rfl⟩,
   ⟨readyOn (.styAbs 0x2000) 0x2000 .device rfl trivial rfl rfl,
    readyOn (.styAbs 0x3FFF) 0x3FFF .rom rfl trivial rfl rfl⟩,
   ⟨readyOn (.saxAbs 0x2000) 0x2000 .device rfl trivial rfl rfl,
    readyOn (.saxAbs 0x3FFF) 0x3FFF .rom rfl trivial rfl rfl⟩⟩

theorem witness_TransfersCopyRegisters : State.reset.t = 0 := rfl

/-- RAM, a device and ROM at the operand. -/
theorem witness_ShiftsAndRotatesOnAAndMemory : 
    ReadyAt .asl ∧ ReadyAt .lsr ∧ ReadyAt .rol ∧ ReadyAt .ror ∧
    ReadyOnBoth .asl ∧ ReadyOnBoth .lsr ∧ ReadyOnBoth .rol ∧ ReadyOnBoth .ror := 
  ⟨readyAt (.aslZp 0xFF) 0x00FF rfl rfl,
   readyAt (.lsrAbs 0xFFFF) 0xFFFF rfl rfl,
   readyAt (.rolZpx 0x00) 0x0000 rfl rfl,
   readyAt (.rorAbx 0x00FF) 0x00FF rfl rfl,
   ⟨readyOn (.aslAbs 0x2000) 0x2000 .device rfl trivial rfl rfl,
    readyOn (.aslAbs 0x3FFF) 0x3FFF .rom rfl trivial rfl rfl⟩,
   ⟨readyOn (.lsrAbs 0x2000) 0x2000 .device rfl trivial rfl rfl,
    readyOn (.lsrAbs 0x3FFF) 0x3FFF .rom rfl trivial rfl rfl⟩,
   ⟨readyOn (.rolAbs 0x2000) 0x2000 .device rfl trivial rfl rfl,
    readyOn (.rolAbs 0x3FFF) 0x3FFF .rom rfl trivial rfl rfl⟩,
   ⟨readyOn (.rorAbs 0x2000) 0x2000 .device rfl trivial rfl rfl,
    readyOn (.rorAbs 0x3FFF) 0x3FFF .rom rfl trivial rfl rfl⟩⟩

/-- RAM, a device and ROM at the operand. -/
theorem witness_IncDecModifyOneByte : 
    ReadyAt .inc ∧ ReadyAt .dec ∧
    ReadyOnBoth .inc ∧ ReadyOnBoth .dec := 
  ⟨readyAt (.incZp 0xFF) 0x00FF rfl rfl,
   readyAt (.decAbs 0x0000) 0x0000 rfl rfl,
   ⟨readyOn (.incAbs 0x2000) 0x2000 .device rfl trivial rfl rfl,
    readyOn (.incAbs 0x3FFF) 0x3FFF .rom rfl trivial rfl rfl⟩,
   ⟨readyOn (.decAbs 0x2000) 0x2000 .device rfl trivial rfl rfl,
    readyOn (.decAbs 0x3FFF) 0x3FFF .rom rfl trivial rfl rfl⟩⟩

theorem witness_RegisterIncrementsAndDecrements : State.reset.t = 0 := rfl

theorem witness_FlagInstructionsWriteOneFlag : State.reset.t = 0 := rfl

theorem witness_NopsChangeOnlyPc : ∃ i : Instr, i.mnemonic = .nop ∧ i.wellFormed = true ∧ State.reset.t = 0 := 
  ⟨.nopAbx 0xFC 0xFFFF, rfl, rfl, rfl⟩

/-- Each branch, both ways (any flags), at the ends of the offset's range. -/
theorem witness_BranchesTakeTheirConditionAndTarget : ∀ r : Regs, ∀ off ∈ [(0x00 : Byte), 0x7F, 0x80, 0xFF],
    ∀ row ∈ [(Instr.bpl off, Mnemonic.bpl), (.bmi off, .bmi), (.bvc off, .bvc), (.bvs off, .bvs), (.bcc off, .bcc),
      (.bcs off, .bcs), (.bne off, .bne), (.beq off, .beq)],
      ∃ s, s.regs = r ∧ Ready row.1 s ∧ row.1.operand = .rel off ∧ row.1.mnemonic = row.2 := by
  intro r off _ row hrow
  refine ⟨here row.1 r, rfl, ready_here _ _, ?_⟩
  simp only [List.mem_cons, List.not_mem_nil, or_false] at hrow
  rcases hrow with rfl | rfl | rfl | rfl | rfl | rfl | rfl | rfl <;> exact ⟨rfl, rfl⟩

theorem witness_JumpsLoadPc : Ready (.jmpAbs 0xFFFF) (here (.jmpAbs 0xFFFF)) ∧ Ready (.jmpInd 0x02FF) (here (.jmpInd 0x02FF)) := 
  ⟨ready_here _ _, ready_here _ _⟩

/-- The operand away from the stack, its high byte where the first push goes, and the stack in RAM, a device and ROM. -/
theorem witness_JsrPushesReturnAddress : 
    (let s := here (.jsr 0x9000)
     s.t = 0 ∧ s.bus.mem.wf = true ∧ s.PlainAt (s.pc + 1) ∧ s.peek (s.pc + 1) = loByte 0x9000 ∧ s.PlainAt (s.pc + 2) ∧
       s.peek (s.pc + 2) = hiByte 0x9000 ∧ s.pc + 2 ≠ stackAddr s.regs.s ∧ s.pc + 2 ≠ stackAddr (s.regs.s - 1)) ∧
    (let s := at_ r0 0x01FB [(0x01FC, 0x34), (0x01FD, 0x12)]
     s.t = 0 ∧ s.bus.mem.wf = true ∧ s.PlainAt (s.pc + 1) ∧ s.peek (s.pc + 1) = loByte 0x1234 ∧ s.PlainAt (s.pc + 2) ∧
       s.peek (s.pc + 2) = hiByte 0x1234 ∧ s.pc + 2 = stackAddr s.regs.s) ∧
    ∀ k ∈ [RegionKind.ram, .device, .rom],
      let s := stackOn k r0
      s.t = 0 ∧ s.bus.mem.wf = true ∧ s.PlainAt (s.pc + 1) ∧ s.peek (s.pc + 1) = loByte 0x0000 ∧ s.PlainAt (s.pc + 2) ∧
        s.peek (s.pc + 2) = hiByte 0x0000 ∧ s.bus.kindAt (stackAddr s.regs.s) = k := by decide

/-- S at its upper end: the pulls wrap in page 1. -/
theorem witness_RtsReturnsPastThePushedAddress : 
    let s := at_ { r0 with s := 0xFF } 0x8000 []
    s.t = 0 ∧ s.PlainAt (stackAddr (s.regs.s + 1)) ∧ s.PlainAt (stackAddr (s.regs.s + 2)) := by decide

theorem witness_RtiRestoresStatusThenPc : 
    let s := at_ { r0 with s := 0xFE } 0x8000 []
    s.t = 0 ∧ s.PlainAt (stackAddr (s.regs.s + 1)) ∧ s.PlainAt (stackAddr (s.regs.s + 2)) ∧
      s.PlainAt (stackAddr (s.regs.s + 3)) := by decide

/-- Both vectors, both values of P_BRK_POLLS, S at its lower end, the stack in RAM, a device and ROM. -/
theorem witness_BrkEntersThroughTheVector : 
    ∀ b c : Bool, ∀ k ∈ [RegionKind.ram, .device, .rom],
      let s := { stackOn k { r0 with s := 0x00 } with nmiPending := b, params := { magic := 0, brkPolls := c } }
      s.t = 0 ∧ s.bus.mem.wf = true ∧ s.bus.kindAt (stackAddr s.regs.s) = k ∧ s.PlainAt (if s.nmiPending then 0xFFFA else 0xFFFE) ∧
        s.PlainAt ((if s.nmiPending then 0xFFFA else 0xFFFE) + 1) := by decide

/-- S at its lower end, the stack in RAM, a device and ROM. -/
theorem witness_PushesStoreAtTheTop : 
    ∀ k ∈ [RegionKind.ram, .device, .rom],
      let s := stackOn k { r0 with s := 0x00 }
      s.t = 0 ∧ s.bus.mem.wf = true ∧ s.bus.kindAt (stackAddr s.regs.s) = k := by decide

theorem witness_PullsLoadFromAboveTheTop : 
    let s := at_ { r0 with s := 0xFF } 0x8000 []
    s.t = 0 ∧ s.PlainAt (stackAddr (s.regs.s + 1)) := by decide

/-- RAM, a device and ROM at the operand. -/
theorem witness_ShiftThenLogicOpcodes : 
    ReadyAt .slo ∧ ReadyAt .rla ∧ ReadyAt .sre ∧
    ReadyOnBoth .slo ∧ ReadyOnBoth .rla ∧ ReadyOnBoth .sre := 
  ⟨readyAt (.sloZp 0xFF) 0x00FF rfl rfl,
   readyAt (.rlaAbs 0xFFFF) 0xFFFF rfl rfl,
   readyAt (.sreAby 0x00FF) 0x00FF rfl rfl,
   ⟨readyOn (.sloAbs 0x2000) 0x2000 .device rfl trivial rfl rfl,
    readyOn (.sloAbs 0x3FFF) 0x3FFF .rom rfl trivial rfl rfl⟩,
   ⟨readyOn (.rlaAbs 0x2000) 0x2000 .device rfl trivial rfl rfl,
    readyOn (.rlaAbs 0x3FFF) 0x3FFF .rom rfl trivial rfl rfl⟩,
   ⟨readyOn (.sreAbs 0x2000) 0x2000 .device rfl trivial rfl rfl,
    readyOn (.sreAbs 0x3FFF) 0x3FFF .rom rfl trivial rfl rfl⟩⟩

/-- RAM, a device and ROM at the operand. -/
theorem witness_ModifyThenArithmeticOpcodes : 
    ReadyAt .rra ∧ ReadyAt .dcp ∧ ReadyAt .isc ∧
    ReadyOnBoth .rra ∧ ReadyOnBoth .dcp ∧ ReadyOnBoth .isc := 
  ⟨readyAt (.rraZp 0xFF) 0x00FF rfl rfl,
   readyAt (.dcpAbs 0xFFFF) 0xFFFF rfl rfl,
   readyAt (.iscAbx 0x00FF) 0x00FF rfl rfl,
   ⟨readyOn (.rraAbs 0x2000) 0x2000 .device rfl trivial rfl rfl,
    readyOn (.rraAbs 0x3FFF) 0x3FFF .rom rfl trivial rfl rfl⟩,
   ⟨readyOn (.dcpAbs 0x2000) 0x2000 .device rfl trivial rfl rfl,
    readyOn (.dcpAbs 0x3FFF) 0x3FFF .rom rfl trivial rfl rfl⟩,
   ⟨readyOn (.iscAbs 0x2000) 0x2000 .device rfl trivial rfl rfl,
    readyOn (.iscAbs 0x3FFF) 0x3FFF .rom rfl trivial rfl rfl⟩⟩

theorem witness_ImmediateCombinedOpcodes : ReadyData .anc ∧ ReadyData .alr ∧ ReadyData .arr ∧ ReadyData .sbx := 
  ⟨readyData (.anc 0x2B 0x80) rfl,
   readyData (.alr 0xFF) rfl,
   readyData (.arr 0xC0) rfl,
   readyData (.sbx 0xFF) rfl⟩

theorem witness_MagicConstantOpcodes : ReadyData .ane ∧ ReadyData .lxa := 
  ⟨readyData (.ane 0xFF) rfl,
   readyData (.lxa 0xFF) rfl⟩

/-- Index sums of 255 and 256: the last without and the first with a page cross; a device and ROM at the address. -/
theorem witness_UnstableStoresCombineTheHighByte : (∀ y ∈ [(0x0F : Byte), 0x10],
    let r := { r0 with x := y, y := y }
    (Ready (.shaAby 0x20F0) (here (.shaAby 0x20F0) r) ∧ (here (.shaAby 0x20F0) r).regs.y = y) ∧
    (Ready (.shx 0x20F0) (here (.shx 0x20F0) r) ∧ (here (.shx 0x20F0) r).regs.y = y) ∧
    (Ready (.shy 0x20F0) (here (.shy 0x20F0) r) ∧ (here (.shy 0x20F0) r).regs.x = y) ∧
    (Ready (.tas 0xFFF0) (here (.tas 0xFFF0) r) ∧ (here (.tas 0xFFF0) r).regs.y = y) ∧
    Ready (.shaIzy 0xFF) (here (.shaIzy 0xFF) r)) ∧
    ReadyOnBoth .sha ∧ ReadyOnBoth .shx ∧ ReadyOnBoth .shy ∧ ReadyOnBoth .tas := 
  ⟨fun _ _ => ⟨⟨ready_here _ _, rfl⟩, ⟨ready_here _ _, rfl⟩, ⟨ready_here _ _, rfl⟩, ⟨ready_here _ _, rfl⟩,
    ready_here _ _⟩,
   ⟨readyOn (.shaAby 0x2000) 0x2000 .device rfl trivial rfl rfl,
    readyOn (.shaAby 0x3FFF) 0x3FFF .rom rfl trivial rfl rfl⟩,
   ⟨readyOn (.shx 0x2000) 0x2000 .device rfl trivial rfl rfl,
    readyOn (.shx 0x3FFF) 0x3FFF .rom rfl trivial rfl rfl⟩,
   ⟨readyOn (.shy 0x2000) 0x2000 .device rfl trivial rfl rfl,
    readyOn (.shy 0x3FFF) 0x3FFF .rom rfl trivial rfl rfl⟩,
   ⟨readyOn (.tas 0x2000) 0x2000 .device rfl trivial rfl rfl,
    readyOn (.tas 0x3FFF) 0x3FFF .rom rfl trivial rfl rfl⟩⟩

theorem witness_JamHaltsUntilReset : (Instr.jam 0xF2).wellFormed = true ∧ Ready (.jam 0xF2) (here (.jam 0xF2)) ∧
    (beginFetch (here (.jam 0xF2))).jammed ∧ HostOp.step ≠ .reset := 
  ⟨rfl, ready_here _ _, ⟨by decide, rfl, rfl⟩, by decide⟩

theorem witness_EveryInstructionButJamCompletes : State.reset.t = 0 ∧ (Instr.nop).mnemonic ≠ .jam := by decide

theorem witness_ReadResultDependsOnlyOnTheByteRead : 
    let i := Instr.ldaImm 0x42
    let j := Instr.ldaIzy 0xFF
    i.mnemonic = j.mnemonic ∧ (entryOf i).pattern = .read ∧ (entryOf j).pattern = .read ∧ (here i).t = 0 ∧
      (here j).t = 0 ∧ (here i).regs = (here j).regs ∧ (here i).params = (here j).params := 
  ⟨rfl, rfl, rfl, rfl, rfl, rfl, rfl⟩

theorem witness_HardwareInterruptEntry : 
    ∀ b : Bool, ∀ k ∈ [RegionKind.ram, .device, .rom],
      let s := { stackOn k { r0 with s := 0x01 } with nmiPending := b, intRequested := true }
      s.t = 0 ∧ s.intRequested = true ∧ s.bus.mem.wf = true ∧ s.bus.kindAt (stackAddr s.regs.s) = k ∧ s.PlainAt (if s.nmiPending then 0xFFFA else 0xFFFE) ∧
        s.PlainAt ((if s.nmiPending then 0xFFFA else 0xFFFE) + 1) := by decide

theorem witness_VectorIsSelectedAfterTheStatusPush : 
    (let s := { State.reset with t := 4, synthetic := true, opcode := 0xEA }
     s.t = 4 ∧ (s.synthetic = true ∨ s.opcode = 0x00)) ∧
    (let s := { State.reset with t := 4 }
     s.t = 4 ∧ (s.synthetic = true ∨ s.opcode = 0x00)) := by decide

theorem witness_HandlersFirstInstructionRuns : 
    ({ State.reset with intRequested := true } : State).t = 0 ∧
    ({ State.reset with intRequested := true } : State).intRequested = true := ⟨rfl, rfl⟩

theorem witness_StepRunsTheDecodedInstruction : 
    let s := here (.ldaAbs 0x1234)
    s.t = 0 ∧ s.intRequested = false ∧
      decode [s.peek s.pc, s.peek (s.pc + 1), s.peek (s.pc + 2)] = .ok (.ldaAbs 0x1234, []) := ⟨rfl, rfl, rfl⟩

theorem witness_ReadBusAccesses : (entryOf (.ldaAby 0x80FF)).pattern = .read ∧ Ready (.ldaAby 0x80FF) (here (.ldaAby 0x80FF)) := 
  ⟨rfl, ready_here _ _⟩

theorem witness_StoreBusAccesses : ReadyAt .sta ∧ ReadyAt .stx ∧ ReadyAt .sty ∧ ReadyAt .sax := 
  ⟨readyAt (.staAbx 0x00FF) 0x00FF rfl rfl,
   readyAt (.stxAbs 0xFFFF) 0xFFFF rfl rfl,
   readyAt (.styZpx 0xFF) 0x00FF rfl rfl,
   readyAt (.saxZpy 0xFF) 0x00FF rfl rfl⟩

/-- RAM, a device and ROM at the operand. -/
theorem witness_ModifyBusAccesses : 
    ReadyAt .asl ∧ ReadyAt .slo ∧ ReadyAt .lsr ∧ ReadyAt .sre ∧ ReadyAt .rol ∧ ReadyAt .rla ∧ ReadyAt .ror ∧ ReadyAt .rra ∧ ReadyAt .inc ∧ ReadyAt .isc ∧ ReadyAt .dec ∧ ReadyAt .dcp ∧
    ReadyOnBoth .asl ∧ ReadyOnBoth .slo ∧ ReadyOnBoth .lsr ∧ ReadyOnBoth .sre ∧ ReadyOnBoth .rol ∧ ReadyOnBoth .rla ∧ ReadyOnBoth .ror ∧ ReadyOnBoth .rra ∧ ReadyOnBoth .inc ∧ ReadyOnBoth .isc ∧ ReadyOnBoth .dec ∧ ReadyOnBoth .dcp := 
  ⟨readyAt (.aslAbs 0xFFFF) 0xFFFF rfl rfl,
   readyAt (.sloAbs 0xFFFF) 0xFFFF rfl rfl,
   readyAt (.lsrAbs 0xFFFF) 0xFFFF rfl rfl,
   readyAt (.sreAbs 0xFFFF) 0xFFFF rfl rfl,
   readyAt (.rolAbs 0xFFFF) 0xFFFF rfl rfl,
   readyAt (.rlaAbs 0xFFFF) 0xFFFF rfl rfl,
   readyAt (.rorAbs 0xFFFF) 0xFFFF rfl rfl,
   readyAt (.rraAbs 0xFFFF) 0xFFFF rfl rfl,
   readyAt (.incAbs 0xFFFF) 0xFFFF rfl rfl,
   readyAt (.iscAbs 0xFFFF) 0xFFFF rfl rfl,
   readyAt (.decAbs 0xFFFF) 0xFFFF rfl rfl,
   readyAt (.dcpAbs 0xFFFF) 0xFFFF rfl rfl,
   ⟨readyOn (.aslAbs 0x2000) 0x2000 .device rfl trivial rfl rfl,
    readyOn (.aslAbs 0x3FFF) 0x3FFF .rom rfl trivial rfl rfl⟩,
   ⟨readyOn (.sloAbs 0x2000) 0x2000 .device rfl trivial rfl rfl,
    readyOn (.sloAbs 0x3FFF) 0x3FFF .rom rfl trivial rfl rfl⟩,
   ⟨readyOn (.lsrAbs 0x2000) 0x2000 .device rfl trivial rfl rfl,
    readyOn (.lsrAbs 0x3FFF) 0x3FFF .rom rfl trivial rfl rfl⟩,
   ⟨readyOn (.sreAbs 0x2000) 0x2000 .device rfl trivial rfl rfl,
    readyOn (.sreAbs 0x3FFF) 0x3FFF .rom rfl trivial rfl rfl⟩,
   ⟨readyOn (.rolAbs 0x2000) 0x2000 .device rfl trivial rfl rfl,
    readyOn (.rolAbs 0x3FFF) 0x3FFF .rom rfl trivial rfl rfl⟩,
   ⟨readyOn (.rlaAbs 0x2000) 0x2000 .device rfl trivial rfl rfl,
    readyOn (.rlaAbs 0x3FFF) 0x3FFF .rom rfl trivial rfl rfl⟩,
   ⟨readyOn (.rorAbs 0x2000) 0x2000 .device rfl trivial rfl rfl,
    readyOn (.rorAbs 0x3FFF) 0x3FFF .rom rfl trivial rfl rfl⟩,
   ⟨readyOn (.rraAbs 0x2000) 0x2000 .device rfl trivial rfl rfl,
    readyOn (.rraAbs 0x3FFF) 0x3FFF .rom rfl trivial rfl rfl⟩,
   ⟨readyOn (.incAbs 0x2000) 0x2000 .device rfl trivial rfl rfl,
    readyOn (.incAbs 0x3FFF) 0x3FFF .rom rfl trivial rfl rfl⟩,
   ⟨readyOn (.iscAbs 0x2000) 0x2000 .device rfl trivial rfl rfl,
    readyOn (.iscAbs 0x3FFF) 0x3FFF .rom rfl trivial rfl rfl⟩,
   ⟨readyOn (.decAbs 0x2000) 0x2000 .device rfl trivial rfl rfl,
    readyOn (.decAbs 0x3FFF) 0x3FFF .rom rfl trivial rfl rfl⟩,
   ⟨readyOn (.dcpAbs 0x2000) 0x2000 .device rfl trivial rfl rfl,
    readyOn (.dcpAbs 0x3FFF) 0x3FFF .rom rfl trivial rfl rfl⟩⟩

theorem witness_ImpliedAndStackBusAccesses : (entryOf .aslAcc).pattern = .implied ∧ State.reset.t = 0 := ⟨rfl, rfl⟩

/-- The ends of the range, an indexed sum of 255 and of 256, and a branch not taken, taken, and to another page. -/
theorem witness_CycleCountsAreDocumented : 
    (∀ row ∈ [((.nop : Instr), r0, 2), (.ldaAbx 0x80FF, { r0 with x := 1 }, 5), (.ldaAbx 0x80FE, { r0 with x := 1 }, 4),
      (.beq 0x7D, r0, 2), (.beq 0x7D, { r0 with z := true }, 3), (.beq 0x7E, { r0 with z := true }, 3),
      (.beq 0x80, { r0 with z := true }, 4), (.sloIzy 0x10, r0, 8)],
      row.1.wellFormed = true ∧ Ready row.1 (here row.1 row.2.1) ∧ (here row.1 row.2.1).intRequested = false ∧
        cyclesOf row.1 (here row.1 row.2.1) = some row.2.2) ∧
    (Instr.nop).mnemonic ≠ .jam ∧
    ((Instr.jam 0x02).wellFormed = true ∧ Ready (.jam 0x02) (here (.jam 0x02)) ∧ 0 < 1) ∧
    ({ State.reset with intRequested := true } : State).t = 0 := by
  refine ⟨?_, by decide, ⟨rfl, ready_here _ _, by decide⟩, rfl⟩
  intro row hrow
  simp only [List.mem_cons, List.not_mem_nil, or_false] at hrow
  rcases hrow with rfl | rfl | rfl | rfl | rfl | rfl | rfl | rfl <;> exact ⟨rfl, ready_here _ _, rfl, by decide⟩

theorem witness_OneBusAccessPerTick : 
    (∃ t, tick State.reset = .next t) ∧ ¬ State.reset.jammed ∧ (beginFetch (here (.jam 0x02))).jammed := 
  ⟨⟨_, rfl⟩, fun h => h.1 rfl, ⟨by decide, rfl, rfl⟩⟩

theorem witness_OpcodeTablePassesTheConstructionCheck : 
    ∃ e ∈ [({ entryNop with cycles := some 3 } : Entry)], e.wellFormed = false := 
  ⟨_, List.mem_singleton.mpr rfl, by decide⟩

theorem witness_RegistersAndFlagsHaveOnlyTheirWriters : State.reset.t = 0 ∧ ∃ t, exec .nop State.reset = .next t := ⟨rfl, _, rfl⟩

theorem witness_DecimalFlagIsReadOnlyByPack : State.reset.t = 0 ∧ (Instr.adcImm 0x09).mnemonic ≠ .php ∧ (Instr.adcImm 0x09).mnemonic ≠ .brk := by
  decide

theorem witness_NmiEdgeLatchesOnce : State.reset.nmiLine = true := rfl

theorem witness_IrqRequestAndAcknowledgeAreASet : 
    rising ({ State.reset with irqAsserted := [3, 5] } : State).irqAsserted = true ∧
    (4 : Nat) ∉ ({ State.reset with irqAsserted := [3, 5] } : State).irqAsserted ∧
    (5 : Nat) ∈ ({ State.reset with irqAsserted := [3, 5] } : State).irqAsserted := by decide

/-- One state for each of the three clauses. -/
theorem witness_MaskedIrqIsNeverServed : ∀ row ∈ [(true, false, []), (true, true, []), (false, false, [7])],
    let s : State := { State.reset with
      regs := { r0 with i := row.1 }, nmiPending := row.2.1, irqAsserted := row.2.2 }
    s.t = 0 ∧ s.intRequested = false ∧ (∃ t, exec .nop s = .next t ∧ t.t = 0) ∧ s.regs.i = row.1 ∧
      s.nmiPending = row.2.1 ∧ s.irqAsserted = row.2.2 := by
  intro row hrow
  simp only [List.mem_cons, List.not_mem_nil, or_false] at hrow
  rcases hrow with rfl | rfl | rfl <;> exact ⟨rfl, rfl, ⟨_, rfl, rfl⟩, rfl, rfl, rfl⟩

/-- A state for each case: t = 0, the entry, JAM, a branch at cycle 2 and after it, BRK, and another instruction. -/
theorem witness_PollPointsAreThoseOfTheRule : 
    (∃ t, tick State.reset = .next t) ∧
    (∃ t, tick { State.reset with t := 6, synthetic := true } = .next t) ∧
    (∃ t, tick { State.reset with t := 1, opcode := 0x02 } = .next t) ∧
    (∃ t, tick { State.reset with t := 1, opcode := 0xF0 } = .next t) ∧
    (∃ t, tick { State.reset with t := 3, opcode := 0xF0 } = .next t) ∧
    (∃ t, tick { State.reset with t := 6, opcode := 0x00 } = .next t) ∧
    (∃ t, tick { State.reset with t := 1, opcode := 0xEA } = .next t) := 
  ⟨⟨_, rfl⟩, ⟨_, rfl⟩, ⟨_, rfl⟩, ⟨_, rfl⟩, ⟨_, rfl⟩, ⟨_, rfl⟩, ⟨_, rfl⟩⟩

theorem witness_CliSeiPlpTakeEffectOneInstructionLate : ∀ b : Bool,
    let s : State := { State.reset with regs := { r0 with i := b }, irqAsserted := [1] }
    s.t = 0 ∧ s.nmiPending = false ∧ s.irqAsserted ≠ [] ∧ s.regs.i = b := by decide

theorem witness_RtiAllowsAnIrqAtOnce : 
    let s : State := { at_ { r0 with s := 0xFF } 0x8000 [(0x0100, 0xFB)] with irqAsserted := [1] }
    s.t = 0 ∧ s.irqAsserted ≠ [] ∧ s.PlainAt (stackAddr (s.regs.s + 1)) ∧
      (s.peek (stackAddr (s.regs.s + 1))).getLsbD 2 = false := by decide

theorem witness_ResetEntryFromAnyState : 
    ({ State.reset with t := 3 } : State).PlainAt 0xFFFC ∧ ({ State.reset with t := 3 } : State).PlainAt 0xFFFD := by
  decide

theorem witness_PowerOnState : 
    let b : Bus := { mem := [(0xFFFC, 0x34), (0xFFFD, 0x12)], regions := [], trace := [] }
    b.kindAt 0xFFFC ≠ .device ∧ b.kindAt 0xFFFD ≠ .device := by decide

theorem witness_DecodeOfEncodeIsTheInstruction : (Instr.nopAbx 0xFC 0xFFFF).wellFormed = true := rfl

theorem witness_EveryByteStringDecodesOneWay : 
    3 ≤ [(0xFF : Byte), 0xFF, 0xFF].length ∧ decode [0x80, 0xFF] = .ok (.nopImm 0x80 0xFF, []) ∧
    (Instr.nopImm 0x80 0xFF).wellFormed = true ∧ encode (.nopImm 0x80 0xFF) = encode (.nopImm 0x80 0xFF) := 
  ⟨by decide, rfl, rfl, rfl⟩

theorem witness_HostOperationsKeepTheInvariant : Invariant State.reset ∧ Invariant (beginFetch (here (.sloIzy 0x10))) := 
  ⟨⟨rfl, rfl, .inl rfl⟩, (ready_here _ r0).2.1, rfl, .inr rfl⟩

theorem witness_StepKeepsTheInvariant : Invariant (beginEntry State.reset) ∧ Invariant (beginFetch (here (.jam 0x02))) := 
  ⟨⟨rfl, rfl, .inr rfl⟩, (ready_here _ r0).2.1, rfl, .inr rfl⟩

theorem witness_ResetMeetsTheInvariant : Memory.wf [(0x0000, 0x01), (0xFFFF, 0x01)] = true := by decide

theorem witness_StepIsTheTicksToTheBoundary : Invariant (beginFetch State.reset) := ⟨rfl, rfl, .inr rfl⟩

/-- A branch that has made its poll, the longest wait. -/
theorem witness_NmiIsServedWithinTenTicks : 
    Invariant { State.reset with t := 2, opcode := 0xF0, nmiPending := true } ∧
    ({ State.reset with t := 2, opcode := 0xF0, nmiPending := true } : State).nmiPending = true := 
  ⟨⟨rfl, rfl, .inr rfl⟩, rfl⟩

/-- Writes to RAM, a device and ROM, with a RAM and a ROM byte read after them. -/
theorem witness_MemoryReadsTheLastWrite : 
    (∀ row ∈ [((0x1FFF : Word), RegionKind.ram), (0x2000, .device), (0x3000, .rom), (0xFFFF, .rom)],
      let s : State := { State.reset with
        bus := { mem := [(0x3000, 1)], regions := [⟨0x2000, 0x1000, .device⟩, ⟨0x3000, 0xD000, .rom⟩], trace := [] } }
      s.bus.mem.wf = true ∧ s.bus.kindAt row.1 = row.2 ∧ s.PlainAt 0x1FFF ∧ s.PlainAt 0x3000) ∧
    (Memory.wf [(0, 1)] = true ∧ ∀ k, Memory.read [(0, 1)] k = Memory.read [(0, 1)] k) ∧
    let s := here (.staAbs 0x8003)
    Ready (.staAbs (s.pc + 3)) s ∧ s.bus.kindAt (s.pc + 3) = .ram := 
  ⟨by decide, ⟨by decide, fun _ => rfl⟩, ready_here (.staAbs 0x8003) _, rfl⟩

end Sys2Proof.Tests
end

/-! PROOFS of the family 00_scope: the invariant holds along every run and the core never faults (O55, O56), the step is
the ticks up to the boundary (O58), and every instruction but JAM completes on any bus (O28). -/

namespace Sys2Proof.Machine

open Sys2Proof

/-! ## Beginning a sequence -/

/-- The table's entry names the mnemonic of its instruction (40_sequencer R104). -/
theorem entryOf_mnemonic (i : Instr) : (entryOf i).mnemonic = i.mnemonic := by
  cases i <;> rfl

/-- The state after cycle 1 (40_sequencer R66) when `s` is between instructions; within a sequence, `s` itself. -/
def State.begun (s : State) : State :=
  if s.t = 0 then (if s.intRequested then beginEntry s else beginFetch s) else s

theorem State.begun_of_entry {s : State} (h0 : s.t = 0) (hr : s.intRequested = true) : s.begun = beginEntry s := by
  rw [State.begun, if_pos h0, if_pos hr]

theorem State.begun_of_fetch {s : State} (h0 : s.t = 0) (hr : s.intRequested = false) : s.begun = beginFetch s := by
  rw [State.begun, if_pos h0, hr, if_neg Bool.false_ne_true]

theorem State.begun_of_within {s : State} (h0 : s.t ≠ 0) : s.begun = s := if_neg h0

/-- The template of a sequence begun with the interrupt entry (40_sequencer R68, 60_exceptions R199). -/
theorem beginEntry_template (s : State) : (beginEntry s).template = tBrk := rfl

/-- The template of a sequence begun with an opcode fetch is that of the opcode the bus answers (R68). -/
theorem beginFetch_template (s : State) : (beginFetch s).template = (entryAt (s.peek s.pc)).template := rfl

/-- Between instructions a tick begins the next sequence. -/
theorem tick_of_boundary {s : State} (h0 : s.t = 0) : tick s = .next s.begun := by
  rw [tick, State.begun, if_pos h0, if_pos h0]

/-- Within a sequence a tick is a cycle of the active template. -/
theorem tick_of_within {s : State} (h0 : s.t ≠ 0) : tick s = cycle s.template s := if_neg h0

/-- Cycle 1 leaves `t` at 1. -/
theorem State.begun_t_of_boundary {s : State} (h0 : s.t = 0) : s.begun.t = 1 := by
  cases hr : s.intRequested
  · rw [State.begun_of_fetch h0 hr, beginFetch_t]
  · rw [State.begun_of_entry h0 hr, beginEntry_t]

theorem State.begun_t_ne_zero (s : State) : s.begun.t ≠ 0 := by
  by_cases h0 : s.t = 0
  · rw [State.begun_t_of_boundary h0]; decide
  · rwa [State.begun_of_within h0]

/-- The step runs the active template from the state after cycle 1 (log 1). -/
theorem step_eq_finish (s : State) : step s = finish s.begun.template 8 s.begun := by
  by_cases h0 : s.t = 0
  · cases hr : s.intRequested
    · rw [State.begun_of_fetch h0 hr, beginFetch_template, step, if_pos h0, hr, if_neg Bool.false_ne_true,
        exec_eq_run, run_of_boundary _ _ h0, fetchInstr, entryOf_ofBytes]
    · rw [State.begun_of_entry h0 hr, beginEntry_template, step, if_pos h0, if_pos hr, takeInterrupt, if_pos h0]
  · rw [State.begun_of_within h0, step, if_neg h0, State.template]
    split
    · rw [takeInterrupt, if_neg h0]
    · rw [exec_eq_run, run, if_neg h0, entryAt]

/-! ## The invariant, tick by tick -/

/-- Every sequence has a cycle after its first. -/
theorem Template.Proper.hasCycle_one {T : Template} (hT : T.Proper) : T.hasCycle 1 = true := by
  cases T with
  | halt => rfl
  | cycles poll ds =>
    obtain ⟨-, -, d, hlast, -⟩ := hT
    cases ds with
    | nil => cases hlast
    | cons => simp [Template.hasCycle]

/-- A tick within a proper sequence leaves the platform and the sequence alone. -/
theorem cycle_kept {T : Template} (hT : T.Proper) {s t : State} (h0 : s.t ≠ 0) (h : cycle T s = .next t) :
    Kept s t := by
  obtain ⟨-, rfl⟩ | ⟨-, -, -, -, -, -, hk, -⟩ := cycle_proper hT h0 h
  · exact Kept.refl t
  · exact hk

/-- A tick within a proper sequence leaves `t` within it, or back at 0 (10_state R30). -/
theorem cycle_hasCycle {T : Template} (hT : T.Proper) {s t : State} (h0 : s.t ≠ 0) (hc : T.hasCycle s.t.val = true)
    (h : cycle T s = .next t) : t.t = 0 ∨ T.hasCycle t.t.val = true := by
  obtain ⟨-, rfl⟩ | ⟨poll, ds, d, rfl, -, -, -, -, -, hend, hgo⟩ := cycle_proper hT h0 h
  · exact .inr hc
  · cases hl : d.last.holds s
    · obtain ⟨ht, hlen⟩ := hgo hl
      right
      simp only [Template.hasCycle, Bool.and_eq_true, decide_eq_true_eq]
      omega
    · exact .inl (hend hl)

/-- The invariant goes from a state to one that has the same sources, sequence and canonical memory. -/
theorem Invariant.of_kept {s t : State} (hi : Invariant s) (hk : Kept s t)
    (hc : t.t = 0 ∨ s.template.hasCycle t.t.val = true) : Invariant t where
  memory := hk.wf hi.memory
  sources := hk.sources ▸ hi.sources
  cycle := hk.template ▸ hc

/-- Cycle 1 of a sequence keeps the invariant. -/
theorem Invariant.begun {s : State} (hi : Invariant s) : Invariant s.begun := by
  by_cases h0 : s.t = 0
  · have hc : s.begun.template.hasCycle s.begun.t.val = true := by
      rw [State.begun_t_of_boundary h0]
      exact (template_proper _).hasCycle_one
    cases hr : s.intRequested
    · rw [State.begun_of_fetch h0 hr] at hc ⊢
      exact ⟨hi.memory, hi.sources, .inr hc⟩
    · rw [State.begun_of_entry h0 hr] at hc ⊢
      exact ⟨hi.memory, hi.sources, .inr hc⟩
  · rwa [State.begun_of_within h0]

/-- In a state that meets the invariant, the active template has the cycle that runs after the first. -/
theorem Invariant.begun_hasCycle {s : State} (hi : Invariant s) :
    s.begun.template.hasCycle s.begun.t.val = true :=
  hi.begun.cycle.resolve_left s.begun_t_ne_zero

/-- The tick answers a next state and keeps the invariant. -/
theorem tick_keeps_invariant {s : State} (hi : Invariant s) : ∃ t, tick s = .next t ∧ Invariant t := by
  by_cases h0 : s.t = 0
  · exact ⟨s.begun, tick_of_boundary h0, hi.begun⟩
  · have hc := hi.cycle.resolve_left h0
    obtain ⟨t, ht⟩ := cycle_exists hc
    exact ⟨t, (tick_of_within h0).trans ht, hi.of_kept (cycle_kept (template_proper s) h0 ht)
      (cycle_hasCycle (template_proper s) h0 hc ht)⟩

/-- Settles O55: the tick keeps the invariant cycle by cycle, and every other operation of the host leaves the sequence
alone or ends it. -/
theorem hostOperationsKeepTheInvariant : Obligations.HostOperationsKeepTheInvariant := by
  intro o s hi
  cases o with
  | step => exact tick_keeps_invariant hi
  | reset => exact ⟨_, rfl, hi.memory, hi.sources, .inl rfl⟩
  | setNmiLine v => exact ⟨_, rfl, hi.memory, hi.sources, hi.cycle⟩
  | request src => exact ⟨_, rfl, hi.memory, rising_addSource hi.sources src, hi.cycle⟩
  | acknowledge src => exact ⟨_, rfl, hi.memory, rising_removeSource hi.sources src, hi.cycle⟩
  | dmaRead a => exact ⟨_, rfl, hi.memory, hi.sources, hi.cycle⟩
  | dmaWrite a v => exact ⟨_, rfl, Bus.wf_memAfter hi.memory a v, hi.sources, hi.cycle⟩

/-! ## The whole sequence -/

/-- The halt stays where it is (40_sequencer R103). -/
theorem finish_halt (n : Nat) (s : State) : finish .halt n s = .next s := by
  induction n with
  | zero => rfl
  | succ n ih =>
    rw [finish]
    split
    · rfl
    · exact ih

/-- A sequence that has ended runs no further. -/
theorem finish_of_boundary (T : Template) (n : Nat) {s : State} (h0 : s.t = 0) : finish T n s = .next s := by
  cases n with
  | zero => rfl
  | succ n => rw [finish, if_pos h0]

/-- A state whose active template is the halt has fetched a JAM (47_unofficial R190). -/
theorem State.jammed_of_halt {s : State} (h0 : s.t ≠ 0) (hT : s.template = .halt) : s.jammed := by
  cases hs : s.synthetic
  · rw [State.template, hs, if_neg Bool.false_ne_true] at hT
    exact ⟨h0, hs, (entryOf_mnemonic _).trans ((entry_halt _).mp hT)⟩
  · rw [State.template, hs, if_pos rfl] at hT
    cases hT

/-- What is left of the active sequence ends between instructions, or is the halt and stays where it is. -/
theorem finish_ends_or_halts {T : Template} (hT : T.Proper) {s : State} {n : Nat} (hc : T.hasCycle s.t.val = true)
    (hn : 8 ≤ n + s.t.val) : ∃ t, finish T n s = .next t ∧ Kept s t ∧ (t.t = 0 ∨ T = .halt ∧ t = s) := by
  cases T with
  | halt => exact ⟨s, finish_halt n s, Kept.refl s, .inr ⟨rfl, rfl⟩⟩
  | cycles poll ds =>
    obtain ⟨-, hlen, -⟩ := id hT
    obtain ⟨t, ht, h0, hk⟩ := finish_ends hT n s (.inr ⟨hc, by omega⟩)
    exact ⟨t, ht, hk, .inl h0⟩

/-- Settles O56: the step is what is left of a sequence after its cycle 1, which ends, or has fetched a JAM. -/
theorem stepKeepsTheInvariant : Obligations.StepKeepsTheInvariant := by
  intro s hi
  have hc := hi.begun_hasCycle
  obtain ⟨t, ht, hk, h0 | ⟨hT, rfl⟩⟩ := finish_ends_or_halts (n := 8) (template_proper s.begun) hc (by omega)
  · exact ⟨t, (step_eq_finish s).trans ht, hi.begun.of_kept hk (.inl h0), .inl h0⟩
  · exact ⟨_, (step_eq_finish s).trans ht, hi.begun, .inr (State.jammed_of_halt s.begun_t_ne_zero hT)⟩

/-! ## The step as ticks -/

/-- A sequence that has ended, or halts, within `n` ticks is where it is after `n + 1`. -/
theorem finish_succ {T : Template} {t : State} (ht : t.t = 0 ∨ T = .halt) : ∀ {n : Nat} {s : State},
    finish T n s = .next t → finish T (n + 1) s = .next t := by
  obtain ht | rfl := ht
  · intro n
    induction n with
    | zero =>
      intro s h
      obtain rfl : s = t := by injection h
      exact finish_of_boundary T 1 ht
    | succ n ih =>
      intro s h
      rw [finish] at h ⊢
      split at h
      · next h0 => rwa [if_pos h0]
      · next h0 =>
        rw [if_neg h0]
        cases hcyc : cycle T s with
        | next u => rw [hcyc] at h; exact ih h
        | fault r => rw [hcyc] at h; cases h
        | refused r => rw [hcyc] at h; cases h
  · intro n s h
    rw [finish_halt] at h ⊢
    exact h

/-- After cycle 1, seven ticks end any sequence that ends. -/
theorem finish_eight_eq_seven {T : Template} (hT : T.Proper) {s : State} (h1 : s.t = 1) :
    finish T 8 s = finish T 7 s := by
  have hc : T.hasCycle s.t.val = true := by rw [h1]; exact hT.hasCycle_one
  obtain ⟨t, ht, -, hend⟩ := finish_ends_or_halts (n := 7) hT hc (by rw [h1]; decide)
  exact (finish_succ (hend.imp_right And.left) ht).trans ht.symm

/-- Within a sequence, running what is left of it is ticking up to the boundary. -/
theorem finish_eq_ticksToBoundary (n : Nat) : ∀ {s : State}, s.t ≠ 0 →
    finish s.template n s = ticksToBoundary n s := by
  induction n with
  | zero => intro s _; rfl
  | succ n ih =>
    intro s h0
    rw [finish, if_neg h0, ticksToBoundary, tick_of_within h0]
    cases h : cycle s.template s with
    | next t =>
      have hT : t.template = s.template := (cycle_kept (template_proper s) h0 h).template
      show finish s.template n t = if t.t = 0 then .next t else ticksToBoundary n t
      split
      · next ht => exact finish_of_boundary _ n ht
      · next ht => rw [← hT, ih ht]
    | fault r => rfl
    | refused r => rfl

/-- Settles O58: within a sequence the step's ticks are those of `tick`; between instructions the first tick is cycle 1,
and the seven that are left end any sequence that ends. -/
theorem stepIsTheTicksToTheBoundary : Obligations.StepIsTheTicksToTheBoundary := by
  intro s _
  rw [step_eq_finish]
  by_cases h0 : s.t = 0
  · have hb : ticksToBoundary 8 s = ticksToBoundary 7 s.begun := by
      rw [ticksToBoundary, tick_of_boundary h0]
      exact if_neg s.begun_t_ne_zero
    rw [hb, finish_eight_eq_seven (template_proper _) (State.begun_t_of_boundary h0),
      finish_eq_ticksToBoundary 7 s.begun_t_ne_zero]
  · rw [State.begun_of_within h0, finish_eq_ticksToBoundary 8 h0]

/-! ## One instruction on any bus -/

/-- Begun in `s`, the instruction answers a next state in which its sequence has settled; only BRK consumes a pending NMI
(60_exceptions R202). -/
def Settles (i : Instr) (s : State) : Prop :=
  ∃ t r pc latch, exec i s = .next t ∧ Settled s t r pc latch ∧ (i.mnemonic ≠ .brk → t.nmiPending = s.nmiPending)

/-- An instruction settles when the template of its entry does and keeps a pending NMI. -/
theorem Settles.of_run {i : Instr} {s t : State} {T : Template} {r : Regs} {pc : Word} {latch : Bool}
    (h : (entryOf i).template = T) (ht : run T s = .next t) (hs : Settled s t r pc latch)
    (hn : t.nmiPending = s.nmiPending) : Settles i s :=
  ⟨t, r, pc, latch, by rw [exec_eq_run, h, ht], hs, fun _ => hn⟩

/-- Every instruction but JAM settles, on any bus: one case per template. -/
theorem settles_of_ne_jam (i : Instr) {s : State} (h0 : s.t = 0) (hj : i.mnemonic ≠ .jam) : Settles i s :=
  match kind i with
  | .imp op h _ => have ⟨_, ht, hs, hn, _⟩ := run_tImp op s h0; .of_run h ht hs hn
  | .imm op h _ _ => have ⟨_, ht, hs, hn, _⟩ := run_tImm op s h0 rfl; .of_run h ht hs hn
  | .read m op h _ _ => have ⟨_, _, _, _, ht, hs, hn, _⟩ := run_read m op h0; .of_run h ht hs hn
  | .write m op h _ _ => have ⟨_, _, _, _, ht, hs, hn, _⟩ := run_write m op h0; .of_run h ht hs hn
  | .rmw m op h _ _ _ => have ⟨_, _, _, _, _, ht, _, hs, hn, _⟩ := run_rmw m op h0; .of_run h ht hs hn
  | .unstableAbi ix r before h _ =>
    have ⟨_, ht, hs, hn, _⟩ := run_tAbiW_unstable ix r before s h0 rfl rfl; .of_run h ht hs hn
  | .unstableIzy r before h _ =>
    have ⟨_, ht, hs, hn, _⟩ := run_tIzyW_unstable r before s h0 rfl rfl rfl; .of_run h ht hs hn
  | .rel cond h _ => have ⟨_, ht, hs, hn, _⟩ := run_tRel cond s h0 rfl; .of_run h ht hs hn
  | .push v h _ => have ⟨_, ht, hs, hn, _⟩ := run_tPush v s h0; .of_run h ht hs hn
  | .pull op h _ => have ⟨_, ht, hs, hn, _⟩ := run_tPull op s h0 rfl; .of_run h ht hs hn
  | .jmpAbs h _ => have ⟨_, ht, hs, hn, _⟩ := run_tJmpAbs s h0 rfl rfl; .of_run h ht hs hn
  | .jmpInd h _ => have ⟨_, ht, hs, hn, _⟩ := run_tJmpInd s h0 rfl rfl rfl rfl; .of_run h ht hs hn
  | .jsr h _ => have ⟨_, ht, hs, hn, _⟩ := run_tJsr s h0 rfl rfl; .of_run h ht hs hn
  | .rts h _ => have ⟨_, ht, hs, hn, _⟩ := run_tRts s h0 rfl rfl; .of_run h ht hs hn
  | .rti h _ _ => have ⟨_, ht, hs, hn, _⟩ := run_tRti s h0 rfl rfl rfl; .of_run h ht hs hn
  | .brk h _ hm =>
    have ⟨t, ht, hs, _⟩ := run_tBrk s h0 rfl rfl
    ⟨t, _, _, _, by rw [exec_eq_run, h, ht], hs, fun hb => absurd hm hb⟩
  | .jam _ _ hm => absurd hm hj

/-- Settles O28: every instruction but JAM settles, and a settled sequence leaves the platform alone. -/
theorem everyInstructionButJamCompletes : Obligations.EveryInstructionButJamCompletes := by
  intro i s h0 hj
  obtain ⟨t, r, pc, latch, ht, hs, hn⟩ := settles_of_ne_jam i h0 hj
  exact ⟨t, ht, hs.done, hs.params, hs.map, hs.nmiLine, hs.sources, hn⟩

end Sys2Proof.Machine

/-! PROOFS of the family 10_state: who writes each register and flag (O41), D is read by nothing but the pushes of the
status (O42), power-on (O50, O57) and the layout of the status byte (O51). -/

namespace Sys2Proof.Machine

open Sys2Proof

/-! ## What each mnemonic means -/

/-- What a mnemonic does in a mode, apart from its addressing: the kind of its OperationSemantics (40_sequencer R69)
with the operation, or the bespoke sequence (R95 to R103). -/
inductive Meaning where
  | implied (op : ImpOp)
  | read (op : ReadOp)
  | readWith (op : Config.Params → ReadOp)
  | write (op : WriteOp)
  | modify (op : RmwOp)
  | unstable (op : WriteOp) (before : ImpOp)
  | branch (cond : BranchCond)
  | push (v : WriteOp)
  | pull (op : ReadOp)
  | jump
  | jsr
  | rts
  | rti
  | brk
  | jam

/-- A shift or rotate acts on A in accumulator mode and on memory in the others (43_shift_incdec R131 to R134). -/
def shiftMeaning (op : RmwOp) : Mode → Meaning
  | .acc => .implied (onA op)
  | _ => .modify op

/-- A NOP reads its operand where it has one (44_flags_nop R148, 47_unofficial R188, R189). -/
def nopMeaning : Mode → Meaning
  | .imp => .implied opNop
  | _ => .read opNopRead

/-- The meaning of every mnemonic; `entryOf_template` ties it to the OpcodeTable. -/
def meaning (m : Mnemonic) (mode : Mode) : Meaning :=
  match m with
  | .adc => .read opAdc
  | .alr => .read opAlr
  | .anc => .read opAnc
  | .and => .read opAnd
  | .ane => .readWith opAne
  | .arr => .read opArr
  | .asl => shiftMeaning opAsl mode
  | .bcc => .branch condBcc
  | .bcs => .branch condBcs
  | .beq => .branch condBeq
  | .bit => .read opBit
  | .bmi => .branch condBmi
  | .bne => .branch condBne
  | .bpl => .branch condBpl
  | .brk => .brk
  | .bvc => .branch condBvc
  | .bvs => .branch condBvs
  | .clc => .implied opClc
  | .cld => .implied opCld
  | .cli => .implied opCli
  | .clv => .implied opClv
  | .cmp => .read opCmp
  | .cpx => .read opCpx
  | .cpy => .read opCpy
  | .dcp => .modify opDcp
  | .dec => .modify opDec
  | .dex => .implied opDex
  | .dey => .implied opDey
  | .eor => .read opEor
  | .inc => .modify opInc
  | .inx => .implied opInx
  | .iny => .implied opIny
  | .isc => .modify opIsc
  | .jam => .jam
  | .jmp => .jump
  | .jsr => .jsr
  | .las => .read opLas
  | .lax => .read opLax
  | .lda => .read opLda
  | .ldx => .read opLdx
  | .ldy => .read opLdy
  | .lsr => shiftMeaning opLsr mode
  | .lxa => .readWith opLxa
  | .nop => nopMeaning mode
  | .ora => .read opOra
  | .pha => .push opPha
  | .php => .push opPhp
  | .pla => .pull opPla
  | .plp => .pull opPlp
  | .rla => .modify opRla
  | .rol => shiftMeaning opRol mode
  | .ror => shiftMeaning opRor mode
  | .rra => .modify opRra
  | .rti => .rti
  | .rts => .rts
  | .sax => .write opSax
  | .sbc => .read opSbc
  | .sbx => .read opSbx
  | .sec => .implied opSec
  | .sed => .implied opSed
  | .sei => .implied opSei
  | .sha => .unstable opSha id
  | .shx => .unstable opShx id
  | .shy => .unstable opShy id
  | .slo => .modify opSlo
  | .sre => .modify opSre
  | .sta => .write opSta
  | .stx => .write opStx
  | .sty => .write opSty
  | .tas => .unstable opTas tasSetS
  | .tax => .implied opTax
  | .tay => .implied opTay
  | .tsx => .implied opTsx
  | .txa => .implied opTxa
  | .txs => .implied opTxs
  | .tya => .implied opTya
  | .usbc => .read opUsbc

/-- The memory mode of an addressing mode with a memory operand (30_encoding R55); no meaning that takes one is used in
another mode. -/
def memModeOf : Mode → MemMode
  | .zpx => .zpx
  | .zpy => .zpy
  | .abs => .abs
  | .abx => .abx
  | .aby => .aby
  | .izx => .izx
  | .izy => .izy
  | _ => .zp

/-- The cycle template of a meaning in a mode (40_sequencer R68, R108). -/
def Meaning.template (M : Meaning) (mode : Mode) : Template :=
  match M with
  | .implied op => tImp op
  | .read op => match mode with
    | .imm => tImm fun _ => op
    | mode => readTemplate (memModeOf mode) op
  | .readWith op => tImm op
  | .write op => writeTemplate (memModeOf mode) op
  | .modify op => rmwTemplate (memModeOf mode) op
  | .unstable op before => match mode with
    | .izy => tIzyW (unstableStore op before)
    | .abx => tAbiW regX (unstableStore op before)
    | _ => tAbiW regY (unstableStore op before)
  | .branch cond => tRel cond
  | .push v => tPush v
  | .pull op => tPull op
  | .jump => match mode with
    | .ind => tJmpInd
    | _ => tJmpAbs
  | .jsr => tJsr
  | .rts => tRts
  | .rti => tRti
  | .brk => tBrk
  | .jam => tJam

/-- The template of every OpcodeTable entry is that of its instruction's meaning (40_sequencer R104). -/
theorem entryOf_template (i : Instr) :
    (entryOf i).template = (meaning i.mnemonic i.operand.mode).template i.operand.mode := by
  cases i <;> rfl

/-- An instruction runs the template of its meaning. -/
theorem exec_eq_run_meaning (i : Instr) (s : State) :
    exec i s = run ((meaning i.mnemonic i.operand.mode).template i.operand.mode) s := by
  rw [exec_eq_run, entryOf_template]

/-! ## What each mnemonic leaves in the registers -/

/-- The registers after a whole instruction, `v` being the byte the bus answered it (for RTI, the status byte). -/
def Meaning.regsAfter (M : Meaning) (p : Config.Params) (r : Regs) (v : Byte) : Regs :=
  match M with
  | .implied op => op r
  | .read op => op r v
  | .readWith op => op p r v
  | .write _ => r
  | .modify op => (op r v).1
  | .unstable _ before => before r
  | .branch _ => r
  | .push _ => { r with s := r.s - 1 }
  | .pull op => op { r with s := r.s + 1 } v
  | .jump => r
  | .jsr => { r with s := r.s - 2 }
  | .rts => { r with s := r.s + 2 }
  | .rti => { unpack r v with s := r.s + 3 }
  | .brk => { r with s := r.s - 3, i := true }
  | .jam => r

/-- Run whole between instructions on any bus, a meaning leaves the registers it names, for some byte the bus
answered. -/
theorem Meaning.run_regs (M : Meaning) (mode : Mode) {s : State} (h0 : s.t = 0) :
    ∃ t v, run (M.template mode) s = .next t ∧ t.regs = M.regsAfter s.params s.regs v := by
  cases M with
  | implied op => have ⟨_, ht, hs, _⟩ := run_tImp op s h0; exact ⟨_, 0, ht, hs.regs⟩
  | read op =>
    simp only [Meaning.template]
    split
    · have ⟨_, ht, hs, _⟩ := run_tImm (fun _ => op) s h0 rfl; exact ⟨_, _, ht, hs.regs⟩
    · have ⟨_, _, _, _, ht, hs, _⟩ := run_read (memModeOf mode) op h0; exact ⟨_, _, ht, hs.regs⟩
  | readWith op => have ⟨_, ht, hs, _⟩ := run_tImm op s h0 rfl; exact ⟨_, _, ht, hs.regs⟩
  | write op => have ⟨_, _, _, _, ht, hs, _⟩ := run_write (memModeOf mode) op h0; exact ⟨_, 0, ht, hs.regs⟩
  | modify op => have ⟨_, _, _, _, _, ht, _, hs, _⟩ := run_rmw (memModeOf mode) op h0; exact ⟨_, _, ht, hs.regs⟩
  | unstable op before =>
    simp only [Meaning.template]
    split
    · have ⟨_, ht, hs, _⟩ := run_tIzyW_unstable op before s h0 rfl rfl rfl; exact ⟨_, 0, ht, hs.regs⟩
    · have ⟨_, ht, hs, _⟩ := run_tAbiW_unstable regX op before s h0 rfl rfl; exact ⟨_, 0, ht, hs.regs⟩
    · have ⟨_, ht, hs, _⟩ := run_tAbiW_unstable regY op before s h0 rfl rfl; exact ⟨_, 0, ht, hs.regs⟩
  | branch cond => have ⟨_, ht, hs, _⟩ := run_tRel cond s h0 rfl; exact ⟨_, 0, ht, hs.regs⟩
  | push v => have ⟨_, ht, hs, _⟩ := run_tPush v s h0; exact ⟨_, 0, ht, hs.regs⟩
  | pull op => have ⟨_, ht, hs, _⟩ := run_tPull op s h0 rfl; exact ⟨_, _, ht, hs.regs⟩
  | jump =>
    simp only [Meaning.template]
    split
    · have ⟨_, ht, hs, _⟩ := run_tJmpInd s h0 rfl rfl rfl rfl; exact ⟨_, 0, ht, hs.regs⟩
    · have ⟨_, ht, hs, _⟩ := run_tJmpAbs s h0 rfl rfl; exact ⟨_, 0, ht, hs.regs⟩
  | jsr => have ⟨_, ht, hs, _⟩ := run_tJsr s h0 rfl rfl; exact ⟨_, 0, ht, hs.regs⟩
  | rts => have ⟨_, ht, hs, _⟩ := run_tRts s h0 rfl rfl; exact ⟨_, 0, ht, hs.regs⟩
  | rti => have ⟨_, ht, hs, _⟩ := run_tRti s h0 rfl rfl rfl; exact ⟨_, _, ht, hs.regs⟩
  | brk => have ⟨_, ht, hs, _⟩ := run_tBrk s h0 rfl rfl; exact ⟨_, 0, ht, hs.regs⟩
  | jam => exact ⟨_, 0, run_tJam s h0, rfl⟩

/-- An instruction begun between instructions on any bus leaves the registers of its meaning. -/
theorem exec_regs {i : Instr} {s t : State} (h0 : s.t = 0) (ht : exec i s = .next t) :
    ∃ v, t.regs = (meaning i.mnemonic i.operand.mode).regsAfter s.params s.regs v := by
  obtain ⟨u, v, hu, hr⟩ := (meaning i.mnemonic i.operand.mode).run_regs i.operand.mode h0
  rw [exec_eq_run_meaning, hu] at ht
  injection ht with ht
  exact ⟨v, ht ▸ hr⟩

/-- Every instruction, JAM included, answers a next state. -/
theorem exec_next (i : Instr) {s : State} (h0 : s.t = 0) : ∃ t, exec i s = .next t := by
  obtain ⟨t, -, ht, -⟩ := (meaning i.mnemonic i.operand.mode).run_regs i.operand.mode h0
  exact ⟨t, (exec_eq_run_meaning i s).trans ht⟩

/-- Settles O41: for each field, a mnemonic stands in the list of writers or its meaning leaves the field as it was. -/
theorem registersAndFlagsHaveOnlyTheirWriters : Obligations.RegistersAndFlagsHaveOnlyTheirWriters := by
  intro i s t h0 ht
  obtain ⟨v, hr⟩ := exec_regs h0 ht
  rw [hr]
  generalize i.operand.mode = mode
  generalize i.mnemonic = m
  cases m
  case' asl | lsr | rol | ror | nop => cases mode
  all_goals
    and_intros <;> intro hm
    all_goals first | rfl | exact ⟨rfl, rfl⟩ | exact absurd (by simp) hm

/-! ## Two runs that agree apart from D -/

/-- The registers with D forgotten. -/
def Regs.noD (r : Regs) : Regs := { r with d := false }

/-- The state with D forgotten: two states differ at most in D when these are equal. -/
def State.noD (s : State) : State := { s with regs := s.regs.noD }

/-- States that agree apart from D are equal once D is. -/
theorem State.eq_of_noD_eq {s u : State} (h : u.noD = s.noD) : { u with regs := { u.regs with d := s.regs.d } } = s :=
  congrArg (fun w : State => { w with regs := { w.regs with d := s.regs.d } }) h

theorem State.t_eq_of_noD_eq {s u : State} (h : u.noD = s.noD) : u.t = s.t := by
  show u.noD.t = s.noD.t
  rw [h]

/-- The cycle does not read D: its access and its end do not depend on D, and what its effect leaves but for D does not
either. -/
structure Descr.IgnoresD (d : Descr) : Prop where
  access : ∀ s : State, d.access s.noD = d.access s
  last   : ∀ s : State, d.last.holds s.noD = d.last.holds s
  effect : ∀ v (s : State), (d.effect v s.noD).noD = (d.effect v s).noD

/-- No cycle of the sequence reads D. -/
def Template.IgnoresD : Template → Prop
  | .halt => True
  | .cycles _ ds => ∀ d ∈ ds, d.IgnoresD

theorem FetchMark.holds_noD (f : FetchMark) (s : State) : f.holds s.noD = f.holds s := by
  cases f <;> rfl

theorem PollRule.polls_noD (p : PollRule) (s : State) (last : Bool) : p.polls s.noD last = p.polls s last := by
  cases p <;> rfl

theorem Descr.IgnoresD.run {d : Descr} (hd : d.IgnoresD) (s : State) : (d.run s.noD).noD = (d.run s).noD := by
  unfold Descr.run
  rw [hd.access, FetchMark.holds_noD]
  symm
  split
  · split <;> exact (hd.effect _ _).symm
  · exact (hd.effect _ _).symm

/-- The state at the end of the tick that runs `d` (40_sequencer R65). -/
def Descr.tickEnd (d : Descr) (poll : PollRule) (s : State) : State :=
  { d.run (if poll.polls s (d.last.holds s) then s.poll else s) with t := if d.last.holds s then 0 else s.t + 1 }

theorem Descr.IgnoresD.tickEnd {d : Descr} (hd : d.IgnoresD) (poll : PollRule) (s : State) :
    (d.tickEnd poll s.noD).noD = (d.tickEnd poll s).noD := by
  have hrun : (d.run (if poll.polls s (d.last.holds s) then s.noD.poll else s.noD)).noD =
      (d.run (if poll.polls s (d.last.holds s) then s.poll else s)).noD := by
    split
    · exact hd.run s.poll
    · exact hd.run s
  rw [Descr.tickEnd, hd.last, PollRule.polls_noD]
  exact congrArg (fun w : State => { w with t := if d.last.holds s then 0 else s.t + 1 }) hrun

/-- A tick keeps two runs that agree apart from D so. -/
theorem Template.IgnoresD.cycle {T : Template} (hT : T.IgnoresD) {s u t : State} (hu : u.noD = s.noD)
    (h : cycle T s = .next t) : ∃ v, cycle T u = .next v ∧ v.noD = t.noD := by
  obtain ⟨rfl, rfl⟩ | ⟨poll, ds, d, rfl, hd, rfl⟩ := cycle_cases h
  · exact ⟨u, rfl, hu⟩
  · have hi : d.IgnoresD := hT d (List.mem_of_getElem? hd)
    have ht : u.t = s.t := State.t_eq_of_noD_eq hu
    refine ⟨d.tickEnd poll u, cycle_next (by rw [ht, hd]), ?_⟩
    calc
      (d.tickEnd poll u).noD = (d.tickEnd poll u.noD).noD := (hi.tickEnd poll u).symm
      _ = (d.tickEnd poll s.noD).noD := by rw [hu]
      _ = (d.tickEnd poll s).noD := hi.tickEnd poll s

/-- So does what is left of a sequence. -/
theorem Template.IgnoresD.finish {T : Template} (hT : T.IgnoresD) (n : Nat) : ∀ {s u t : State}, u.noD = s.noD →
    finish T n s = .next t → ∃ v, finish T n u = .next v ∧ v.noD = t.noD := by
  induction n with
  | zero =>
    intro s u t hu h
    obtain rfl : s = t := by injection h
    exact ⟨u, rfl, hu⟩
  | succ n ih =>
    intro s u t hu h
    have ht : u.t = s.t := State.t_eq_of_noD_eq hu
    rw [Machine.finish] at h ⊢
    split at h
    · next h0 =>
      obtain rfl : s = t := by injection h
      exact ⟨u, if_pos (ht.trans h0), hu⟩
    · next h0 =>
      rw [if_neg (ht ▸ h0)]
      split at h
      · next s' hs =>
        obtain ⟨u', hu', he⟩ := hT.cycle hu hs
        rw [hu']
        exact ih he h
      · cases h
      · cases h

/-- So does a whole sequence. -/
theorem Template.IgnoresD.run {T : Template} (hT : T.IgnoresD) {s u t : State} (hu : u.noD = s.noD)
    (h0 : s.t = 0) (h : run T s = .next t) : ∃ v, run T u = .next v ∧ v.noD = t.noD := by
  have ht : u.t = 0 := (State.t_eq_of_noD_eq hu).trans h0
  rw [run_of_boundary _ _ h0] at h
  rw [run_of_boundary _ _ ht]
  have hb : (beginFetch u).noD = (beginFetch s).noD := by
    show beginFetch u.noD = beginFetch s.noD
    rw [hu]
  exact hT.finish 8 hb h

/-! ## Operations, cycles and templates that do not read D -/

/-- The operation does not read D: what it leaves but for D does not depend on D. -/
def ImpOp.IgnoresD (op : ImpOp) : Prop := ∀ r : Regs, (op r.noD).noD = (op r).noD

/-- The same of a ReadOp, for every byte. -/
def ReadOp.IgnoresD (op : ReadOp) : Prop := ∀ r v, (op r.noD v).noD = (op r v).noD

/-- The same of an RmwOp, and its result does not depend on D. -/
def RmwOp.IgnoresD (op : RmwOp) : Prop := ∀ r v, Prod.map Regs.noD id (op r.noD v) = Prod.map Regs.noD id (op r v)

/-- What is computed from the registers (a WriteOp, a branch condition, an index) does not depend on D. -/
def IgnoresD {α : Type} (f : Regs → α) : Prop := ∀ r : Regs, f r.noD = f r

theorem State.zpAddr_noD (s : State) : s.noD.zpAddr = s.zpAddr := rfl
theorem State.ea_noD (s : State) : s.noD.ea = s.ea := rfl
@[simp] theorem regX_ignoresD : IgnoresD regX := fun _ => rfl
@[simp] theorem regY_ignoresD : IgnoresD regY := fun _ => rfl

@[simp] theorem fetchLo_ignoresD : fetchLo.IgnoresD := ⟨fun _ => rfl, fun _ => rfl, fun _ _ => rfl⟩
@[simp] theorem fetchHi_ignoresD : fetchHi.IgnoresD := ⟨fun _ => rfl, fun _ => rfl, fun _ _ => rfl⟩
@[simp] theorem fetchPtr_ignoresD : fetchPtr.IgnoresD := ⟨fun _ => rfl, fun _ => rfl, fun _ _ => rfl⟩
@[simp] theorem indexPtr_ignoresD : indexPtr.IgnoresD := ⟨fun _ => rfl, fun _ => rfl, fun _ _ => rfl⟩
@[simp] theorem ptrReadLo_ignoresD : ptrReadLo.IgnoresD := ⟨fun _ => rfl, fun _ => rfl, fun _ _ => rfl⟩
@[simp] theorem ptrReadHi_ignoresD : ptrReadHi.IgnoresD := ⟨fun _ => rfl, fun _ => rfl, fun _ _ => rfl⟩
@[simp] theorem ptrReadHiIndexed_ignoresD : ptrReadHiIndexed.IgnoresD := ⟨fun _ => rfl, fun _ => rfl, fun _ _ => rfl⟩

@[simp] theorem fetchHiIndexed_ignoresD {ix : Regs → Byte} (h : IgnoresD ix) : (fetchHiIndexed ix).IgnoresD :=
  ⟨fun _ => rfl, fun _ => rfl, fun v s => congrArg (fun k => State.noD
    { s with addrHi := v, addrLo := indexLow s.addrLo k, pageCross := indexCarry s.addrLo k }) (h s.regs)⟩

@[simp] theorem indexZeroPage_ignoresD {ix : Regs → Byte} (h : IgnoresD ix) : (indexZeroPage ix).IgnoresD :=
  ⟨fun _ => rfl, fun _ => rfl, fun _ s => congrArg (fun k => State.noD { s with addrLo := s.addrLo + k }) (h s.regs)⟩

@[simp] theorem fixCycle_ignoresD : fixCycle.IgnoresD := by
  refine ⟨fun _ => rfl, fun _ => rfl, fun _ s => ?_⟩
  show State.noD (if s.pageCross then _ else s.noD) = State.noD (if s.pageCross then _ else s)
  split <;> rfl

theorem State.readOp_noD {op : ReadOp} (h : op.IgnoresD) (v : Byte) (s : State) :
    (s.noD.readOp op v).noD = (s.readOp op v).noD :=
  congrArg (fun r => { s with operand := v, regs := r }) (h s.regs v)

theorem readReady_ignoresD {a : State → Word} (ha : ∀ s : State, a s.noD = a s) {op : ReadOp} (h : op.IgnoresD) :
    (readReady a op).IgnoresD :=
  ⟨fun s => congrArg Access.read (ha s), fun _ => rfl, State.readOp_noD h⟩

theorem readUnlessCross_ignoresD {op : ReadOp} (h : op.IgnoresD) : (readUnlessCross op).IgnoresD := by
  refine ⟨fun _ => rfl, fun _ => rfl, fun v s => ?_⟩
  show State.noD (if s.pageCross then _ else s.noD.readOp op v) = State.noD (if s.pageCross then _ else s.readOp op v)
  split
  · rfl
  · exact State.readOp_noD h v s

theorem writeReady_ignoresD {a : State → Word} (ha : ∀ s : State, a s.noD = a s) {op : WriteOp}
    (h : IgnoresD op) : (writeReady a op).IgnoresD :=
  ⟨fun s => congrArg₂ Access.write (ha s) (h s.regs), fun _ => rfl, fun _ _ => rfl⟩

theorem rmwCycles_ignoresD {a : State → Word} (ha : ∀ s : State, a s.noD = a s) {op : RmwOp} (h : op.IgnoresD) :
    ∀ d ∈ rmwCycles a op, d.IgnoresD := by
  have hr : (readAt a (fun v s => { s with operand := v })).IgnoresD :=
    ⟨fun s => congrArg Access.read (ha s), fun _ => rfl, fun _ _ => rfl⟩
  have hw (s : State) : Access.write (a s.noD) s.operand = .write (a s) s.operand :=
    congrArg (Access.write · s.operand) (ha s)
  refine List.forall_mem_cons.mpr ⟨hr, List.forall_mem_cons.mpr ⟨⟨hw, fun _ => rfl, fun _ s => ?_⟩,
    List.forall_mem_singleton.mpr ⟨hw, fun _ => rfl, fun _ _ => rfl⟩⟩⟩
  exact congrArg (fun p : Regs × Byte => { s with operand := p.2, regs := p.1 }) (h s.regs s.operand)

theorem unstableStore_ignoresD {op : WriteOp} (h : IgnoresD op) {before : ImpOp} (hb : before.IgnoresD) :
    (unstableStore op before).IgnoresD := by
  refine ⟨fun s => ?_, fun _ => rfl, fun v s => ?_⟩
  · simp only [unstableStore, unstableValue]
    rw [show op s.noD.regs = op s.regs from h s.regs]
    rfl
  · exact congrArg (fun r => { s with regs := r, addrHi := if s.pageCross then v else s.addrHi }) (hb s.regs)

theorem readTemplate_ignoresD (m : MemMode) {op : ReadOp} (h : op.IgnoresD) : (readTemplate m op).IgnoresD := by
  have hz := readReady_ignoresD State.zpAddr_noD h
  have he := readReady_ignoresD State.ea_noD h
  have hu := readUnlessCross_ignoresD h
  cases m <;> simp [readTemplate, tZpR, tZpiR, tAbsR, tAbiR, tIzxR, tIzyR, Template.IgnoresD, hz, he, hu]

theorem writeTemplate_ignoresD (m : MemMode) {op : WriteOp} (h : IgnoresD op) : (writeTemplate m op).IgnoresD := by
  have hz := writeReady_ignoresD State.zpAddr_noD h
  have he := writeReady_ignoresD State.ea_noD h
  cases m <;> simp [writeTemplate, tZpW, tZpiW, tAbsW, tAbiW, tIzxW, tIzyW, Template.IgnoresD, hz, he]

theorem rmwTemplate_ignoresD (m : MemMode) {op : RmwOp} (h : op.IgnoresD) : (rmwTemplate m op).IgnoresD := by
  have hz := rmwCycles_ignoresD State.zpAddr_noD h
  have he := rmwCycles_ignoresD State.ea_noD h
  cases m <;> simpa [rmwTemplate, tZpM, tZpiM, tAbsM, tAbiM, tIzxM, tIzyM, Template.IgnoresD]

theorem tImp_ignoresD {op : ImpOp} (h : op.IgnoresD) : (tImp op).IgnoresD :=
  List.forall_mem_singleton.mpr
    ⟨fun _ => rfl, fun _ => rfl, fun _ s => congrArg (fun r => { s with regs := r }) (h s.regs)⟩

theorem tImm_ignoresD {op : Config.Params → ReadOp} (h : ∀ p, (op p).IgnoresD) : (tImm op).IgnoresD :=
  List.forall_mem_singleton.mpr ⟨fun _ => rfl, fun _ => rfl, fun v s => State.readOp_noD (h s.params) v s⟩

theorem tRel_ignoresD {cond : BranchCond} (h : IgnoresD cond) : (tRel cond).IgnoresD := by
  intro d hd
  fin_cases hd
  · exact ⟨fun _ => rfl, fun s => congrArg not (h s.regs), fun _ _ => rfl⟩
  · exact ⟨fun _ => rfl, fun _ => rfl, fun _ _ => rfl⟩
  · exact ⟨fun _ => rfl, fun _ => rfl, fun _ _ => rfl⟩

theorem tPush_ignoresD {v : WriteOp} (h : IgnoresD v) : (tPush v).IgnoresD := by
  intro d hd
  fin_cases hd
  · exact ⟨fun _ => rfl, fun _ => rfl, fun _ _ => rfl⟩
  · exact ⟨fun s => congrArg (Access.write s.top) (h s.regs), fun _ => rfl, fun _ _ => rfl⟩

theorem tPull_ignoresD {op : ReadOp} (h : op.IgnoresD) : (tPull op).IgnoresD := by
  intro d hd
  fin_cases hd
  · exact ⟨fun _ => rfl, fun _ => rfl, fun _ _ => rfl⟩
  · exact ⟨fun _ => rfl, fun _ => rfl, fun _ _ => rfl⟩
  · exact ⟨fun _ => rfl, fun _ => rfl, fun v s => congrArg (fun r => { s with regs := r }) (h s.regs v)⟩

/-- The operation of a meaning does not read D; BRK pushes it (45_control R163). -/
def Meaning.IgnoresD : Meaning → Prop
  | .implied op => op.IgnoresD
  | .read op => op.IgnoresD
  | .readWith op => ∀ p, (op p).IgnoresD
  | .write op => Machine.IgnoresD op
  | .modify op => op.IgnoresD
  | .unstable op before => Machine.IgnoresD op ∧ before.IgnoresD
  | .branch cond => Machine.IgnoresD cond
  | .push v => Machine.IgnoresD v
  | .pull op => op.IgnoresD
  | .jump => True
  | .jsr => True
  | .rts => True
  | .rti => True
  | .brk => False
  | .jam => True

/-- A template reads D only through its operation. -/
theorem Meaning.IgnoresD.template {M : Meaning} (h : M.IgnoresD) (mode : Mode) : (M.template mode).IgnoresD := by
  cases M with
  | implied op => exact tImp_ignoresD h
  | read op =>
    simp only [Meaning.template]
    split
    · exact tImm_ignoresD fun _ => h
    · exact readTemplate_ignoresD _ h
  | readWith op => exact tImm_ignoresD h
  | write op => exact writeTemplate_ignoresD _ h
  | modify op => exact rmwTemplate_ignoresD _ h
  | unstable op before =>
    obtain ⟨hop, hbefore⟩ := h
    have hu := unstableStore_ignoresD hop hbefore
    simp only [Meaning.template]
    split <;> simp [tIzyW, tAbiW, Template.IgnoresD, hu]
  | branch cond => exact tRel_ignoresD h
  | push v => exact tPush_ignoresD h
  | pull op => exact tPull_ignoresD h
  | jump =>
    simp only [Meaning.template]
    split
    all_goals
      intro d hd
      fin_cases hd <;> exact ⟨fun _ => rfl, fun _ => rfl, fun _ _ => rfl⟩
  | jsr | rts | rti =>
    intro d hd
    fin_cases hd <;> exact ⟨fun _ => rfl, fun _ => rfl, fun _ _ => rfl⟩
  | brk => exact h.elim
  | jam => trivial

/-- No operation but the pushes of the status byte reads D (10_state R26, 41_alu R109). -/
theorem meaning_ignoresD (m : Mnemonic) (mode : Mode) (hp : m ≠ .php) (hb : m ≠ .brk) :
    (meaning m mode).IgnoresD := by
  cases m
  case php => exact absurd rfl hp
  case brk => exact absurd rfl hb
  case jmp | jsr | rts | rti | jam => trivial
  case ane | lxa => exact fun _ _ _ => rfl
  case sha | shx | shy | tas => exact ⟨fun _ => rfl, fun _ => rfl⟩
  case' asl | lsr | rol | ror | nop => cases mode
  all_goals
    intro _
    intros
    rfl

/-- Run from states that agree apart from D, an instruction other than PHP and BRK ends in states that do. -/
theorem exec_agree {i : Instr} (hp : i.mnemonic ≠ .php) (hb : i.mnemonic ≠ .brk) {s u t : State} (h0 : s.t = 0)
    (hu : u.noD = s.noD) (h : exec i s = .next t) : ∃ v, exec i u = .next v ∧ v.noD = t.noD := by
  rw [exec_eq_run_meaning] at h ⊢
  exact ((meaning_ignoresD _ _ hp hb).template _).run hu h0 h

/-- Settles O42: both runs end, and no cycle of either reads D. -/
theorem decimalFlagIsReadOnlyByPack : Obligations.DecimalFlagIsReadOnlyByPack := by
  intro i s b h0 hp hb
  obtain ⟨t, ht⟩ := exec_next i h0
  obtain ⟨u, hu, he⟩ := exec_agree hp hb (u := { s with regs := { s.regs with d := b } }) h0 rfl ht
  exact ⟨t, u, ht, hu, State.eq_of_noD_eq he⟩

/-! ## Power-on -/

/-- PC after power-on is the word at 0xFFFC: the entry point's first read changes no plain byte (70_reset R216). -/
theorem powerOn_pc (p : Config.Params) (w : Config.PowerOn) {b : Bus} (h : b.kindAt 0xFFFD ≠ .device) :
    (powerOn p w b).pc = mkWord (b.answer 0xFFFD) (b.answer 0xFFFC) :=
  congrArg (mkWord · _) (Bus.answer_read h 0 resetVector)

/-- Settles O50: power-on is the reset entry point over the created state. -/
theorem powerOnState : Obligations.PowerOnState := by
  refine ⟨fun p w b _ h => ?_, fun _ _ _ _ _ _ _ _ => rfl, rfl, rfl⟩
  exact ⟨rfl, powerOn_pc p w h, rfl, rfl, rfl, rfl, rfl, rfl, rfl⟩

/-- Power-on over canonical memory meets the invariant, between instructions and with no source. -/
theorem Invariant.powerOn (p : Config.Params) (w : Config.PowerOn) {b : Bus} (hb : b.mem.wf = true) :
    Invariant (powerOn p w b) :=
  ⟨hb, rfl, .inl rfl⟩

/-- Settles O57: `State.reset` is a power-on over an empty memory. -/
theorem resetMeetsTheInvariant : Obligations.ResetMeetsTheInvariant :=
  ⟨.powerOn Config.defaultParams .zero (b := ⟨[], [], []⟩) rfl, fun p w _ hb => .powerOn p w hb⟩

/-! ## The status byte -/

/-- The packed status, bit 7 down to bit 0 (10_state R22). -/
theorem pack_bits (r : Regs) (b : Bool) :
    (pack r b).getLsbD 7 = r.n ∧ (pack r b).getLsbD 6 = r.v ∧ (pack r b).getLsbD 5 = true ∧
    (pack r b).getLsbD 4 = b ∧ (pack r b).getLsbD 3 = r.d ∧ (pack r b).getLsbD 2 = r.i ∧
    (pack r b).getLsbD 1 = r.z ∧ (pack r b).getLsbD 0 = r.c := by
  simp only [pack, BitVec.getLsbD_append, BitVec.getLsbD_ofBool]
  simp

/-- Unpacking reads the bits of the six live flags and no other (10_state R24). -/
theorem unpack_congr {r : Regs} {v w : Byte} (h : ∀ k ∈ [7, 6, 3, 2, 1, 0], v.getLsbD k = w.getLsbD k) :
    unpack r v = unpack r w := by
  simp only [List.forall_mem_cons] at h
  obtain ⟨h7, h6, h3, h2, h1, h0, -⟩ := h
  simp only [unpack, h7, h6, h3, h2, h1, h0]

/-- Settles O51: bit by bit; setting or clearing bits 5 and 4 leaves the bits that unpacking reads. -/
theorem statusByteLayout : Obligations.StatusByteLayout := by
  refine ⟨fun r b => ?_, fun r v => ⟨rfl, unpack_congr ?_, unpack_congr ?_⟩⟩
  · obtain ⟨h7, h6, h5, h4, h3, h2, h1, h0⟩ := pack_bits r b
    exact ⟨h7, h6, h5, h4, h3, h2, h1, h0, unpack_pack r b⟩
  · simp
  · simp

end Sys2Proof.Machine

/-! PROOFS of the family 20_memory: every tick makes one bus access (O39), and plain memory reads the last write
(O60). -/

namespace Sys2Proof.Machine

open Sys2Proof

/-! ## One bus access per cycle -/

/-- Cycle 1 of a sequence, an opcode fetch or the discarded read of the interrupt entry, reads at PC (40_sequencer
R66). -/
theorem State.begun_bus_of_boundary {s : State} (h0 : s.t = 0) : s.begun.bus = s.bus.read 1 s.pc := by
  cases hr : s.intRequested
  · rw [State.begun_of_fetch h0 hr, beginFetch_bus]
  · rw [State.begun_of_entry h0 hr, beginEntry_bus]

/-- The active template of a jammed state is the halt (40_sequencer R103, 47_unofficial R190). -/
theorem State.template_of_jammed {s : State} (hj : s.jammed) : s.template = .halt := by
  obtain ⟨-, hs, hm⟩ := hj
  rw [State.template, hs, if_neg Bool.false_ne_true]
  exact (entry_halt _).mpr ((entryOf_mnemonic _).symm.trans hm)

/-- A jammed core stays where it is. -/
theorem tick_of_jammed {s : State} (hj : s.jammed) : tick s = .next s := by
  rw [tick_of_within hj.1, State.template_of_jammed hj, cycle]

/-- A tick of a core that is not jammed records one event, in the cycle it executes. -/
theorem tick_trace {s t : State} (h : tick s = .next t) (hj : ¬ s.jammed) :
    ∃ e, t.bus.trace = e :: s.bus.trace ∧ (e.kind = .read ∨ e.kind = .write) ∧ e.cycle = s.t.val + 1 := by
  by_cases h0 : s.t = 0
  · rw [tick_of_boundary h0] at h
    injection h with h
    rw [← h, State.begun_bus_of_boundary h0, Bus.read_trace, h0]
    exact ⟨_, rfl, .inl rfl, rfl⟩
  · rw [tick_of_within h0] at h
    obtain ⟨hT, -⟩ | ⟨-, -, -, -, -, -, -, -, htrace, -⟩ := cycle_proper (template_proper s) h0 h
    · exact absurd (State.jammed_of_halt h0 hT) hj
    · exact htrace

/-- Settles O39: a tick is cycle 1, a cycle of a proper template, or the halt; the reset entry point reads its vector's
two bytes. -/
theorem oneBusAccessPerTick : Obligations.OneBusAccessPerTick := by
  refine ⟨fun s t h hj => tick_trace h hj, fun s hj => tick_of_jammed hj, fun s => ?_⟩
  rw [State.resetEntry_bus, Bus.read_trace, Bus.read_trace]
  exact ⟨_, _, rfl, rfl, rfl⟩

/-! ## The last write -/

/-- A plain byte does not depend on the trace. -/
theorem Bus.answer_congr {b b' : Bus} {a : Word} (hm : b.mem = b'.mem) (hr : b.regions = b'.regions)
    (h : b'.kindAt a ≠ .device) : b.answer a = b'.answer a := by
  have hk : b.kindAt a = b'.kindAt a := by rw [Bus.kindAt, Bus.kindAt, hr]
  rw [Bus.answer_plain h, Bus.answer_plain (hk ▸ h), hm]

/-- What a plain byte reads as after a write by the core (20_memory R41). -/
theorem answer_write_stored {s : State} {b : Word} (hm : s.bus.mem.wf = true) (hb : s.PlainAt b) (c : Nat) (a : Word)
    (v : Byte) : (s.bus.write c a v).answer b = stored s s.peek a v b :=
  Bus.answer_write hm hb c a v

/-- A write by a DMA stage leaves every plain byte as a write by the core does (20_memory R49). -/
theorem peek_dmaWrite_stored {s : State} {b : Word} (hm : s.bus.mem.wf = true) (hb : s.PlainAt b) (a : Word)
    (v : Byte) : (s.dmaWrite a v).peek b = stored s s.peek a v b :=
  calc
    (s.dmaWrite a v).peek b = (s.bus.write 0 a v).answer b := Bus.answer_congr rfl rfl hb
    _ = stored s s.peek a v b := answer_write_stored hm hb 0 a v

/-- RAM reads as the byte stored there. -/
theorem stored_at_ram {s : State} {a : Word} (hk : s.bus.kindAt a = .ram) (mem : Word → Byte) (v : Byte) :
    stored s mem a v a = v :=
  if_pos ⟨rfl, hk⟩

/-- STA absolute completes with A stored at its operand (42_load_store_transfer R122). -/
theorem staAbs_completes {w : Word} {s : State} (hr : Ready (.staAbs w) s) :
    Completes (.staAbs w) s s.regs (s.pc + 3) (stored s s.peek w s.regs.a) :=
  completes_write (op := opSta) rfl rfl hr rfl

/-- A store into the byte after the instruction, RAM, is what the next fetch takes: nothing is prefetched
(70_reset_and_hazards R223). -/
theorem staAbs_next_fetched {s : State} (hr : Ready (.staAbs (s.pc + 3)) s) (hk : s.bus.kindAt (s.pc + 3) = .ram) :
    ∃ t, exec (.staAbs (s.pc + 3)) s = .next t ∧ t.pc = s.pc + 3 ∧ (beginFetch t).opcode = s.regs.a := by
  obtain ⟨t, ht, hs, -, hmem⟩ := staAbs_completes hr
  have hplain : s.PlainAt (s.pc + 3) := by rw [State.PlainAt, hk]; decide
  refine ⟨t, ht, hs.pc, ?_⟩
  calc
    (beginFetch t).opcode = t.peek t.pc := beginFetch_opcode t
    _ = stored s s.peek (s.pc + 3) s.regs.a (s.pc + 3) := by rw [hs.pc, hmem _ hplain]
    _ = s.regs.a := stored_at_ram hk _ _

/-- Settles O60: a write by the core, the same by a DMA stage, equal canonical memories, and a store that the next fetch
sees. -/
theorem memoryReadsTheLastWrite : Obligations.MemoryReadsTheLastWrite :=
  ⟨fun _ c a _ v hm hb => ⟨answer_write_stored hm hb c a v, peek_dmaWrite_stored hm hb a v⟩,
    fun _ _ => Memory.ext, fun _ => staAbs_next_fetched⟩

end Sys2Proof.Machine

/-! PROOFS of the family 30_encoding: decode and encode are inverse to each other on the well-formed instructions (O52,
O53), the step runs what the bytes at PC decode to (O33), the OpcodeTable passes its construction check (O40), and a few
encodings written out decode (O54). -/

namespace Sys2Proof.Machine

open Sys2Proof

/-! ## The OpcodeTable -/

/-- Every entry passes the construction check (40_sequencer R107). -/
theorem entryOf_wellFormed (i : Instr) : (entryOf i).wellFormed = true := by
  cases i <;> rfl

/-- The opcode byte a term carries is all that can be wrong with it. -/
theorem wellFormed_eq_variantOk (i : Instr) : i.wellFormed = i.variantOk := by
  rw [Instr.wellFormed, entryOf_wellFormed, Bool.and_true]

theorem opcodeTable_length : opcodeTable.length = 256 := by
  rw [opcodeTable, List.length_map, List.length_range]

theorem tableOk_iff (t : List Entry) : tableOk t = true ↔ t.length = 256 ∧ ∀ e ∈ t, e.wellFormed = true := by
  rw [tableOk, Bool.and_eq_true, beq_iff_eq, List.all_eq_true]

theorem tableOk_opcodeTable : tableOk opcodeTable = true := by
  refine (tableOk_iff _).mpr ⟨opcodeTable_length, fun e he => ?_⟩
  obtain ⟨k, -, rfl⟩ := List.mem_map.mp he
  exact entryOf_wellFormed _

/-- The count of the official entries (30_encoding R60). -/
theorem opcodeTable_official_length : (opcodeTable.filter fun e => e.official).length = 151 := by rfl

/-- Settles O40: every entry passes the check, a table passes only when each of its entries does, and the 105 unofficial
entries are the rest of the 256. -/
theorem opcodeTablePassesTheConstructionCheck : Obligations.OpcodeTablePassesTheConstructionCheck := by
  refine ⟨tableOk_opcodeTable, fun l hl => ?_, opcodeTable_official_length, ?_⟩
  · obtain ⟨e, he, hbad⟩ := hl
    refine Bool.eq_false_iff.mpr fun hok => ?_
    exact Bool.eq_false_iff.mp hbad (((tableOk_iff l).mp hok).2 e he)
  · have hsplit := List.length_eq_length_filter_add (l := opcodeTable) fun e => e.official
    rw [opcodeTable_length, opcodeTable_official_length] at hsplit
    omega

/-! ## From bytes to an instruction and back -/

theorem operand_bytes_length_le (o : Operand) : o.bytes.length ≤ 2 := by
  cases o <;> simp [Operand.bytes]

/-- The bytes after the opcode choose neither the opcode nor the row of the map, and the operand is as many of them as the
opcode says (30_encoding R56, R62): row by row, column by column. -/
theorem ofBytes_operands (op b1 b2 : Byte) :
    (ofBytes op b1 b2).opcode = (ofBytes op 0 0).opcode ∧ (ofBytes op b1 b2).variantOk = (ofBytes op 0 0).variantOk ∧
    (ofBytes op b1 b2).operand.bytes = [b1, b2].take (ofBytes op 0 0).operand.bytes.length := by
  unfold ofBytes
  generalize op.toNat % 16 = col
  split
  all_goals
    simp only [mapRow0, mapRow1, mapRow2, mapRow3, mapRow4, mapRow5, mapRow6, mapRow7, mapRow8, mapRow9, mapRowA,
      mapRowB, mapRowC, mapRowD, mapRowE, mapRowF]
    split <;> simp [Instr.opcode, Instr.variantOk, Instr.operand, Operand.bytes]

/-- The map R59 answers an instruction whose Encoding line has that opcode byte. -/
theorem ofBytes_opcode (op b1 b2 : Byte) : (ofBytes op b1 b2).opcode = op := by
  obtain ⟨hop, -, -⟩ := ofBytes_operands op b1 b2
  rw [hop]
  exact (by decide : ∀ op : Byte, (ofBytes op 0 0).opcode = op) op

theorem ofBytes_wellFormed (op b1 b2 : Byte) : (ofBytes op b1 b2).wellFormed = true := by
  obtain ⟨-, hvar, -⟩ := ofBytes_operands op b1 b2
  rw [wellFormed_eq_variantOk, hvar]
  exact (by decide : ∀ op : Byte, (ofBytes op 0 0).variantOk = true) op

/-- What the map answers is encoded by the opcode and as many of the bytes after it as the opcode says. -/
theorem encode_ofBytes (op b1 b2 : Byte) : encode (ofBytes op b1 b2) = [op, b1, b2].take (ofBytes op 0 0).length := by
  obtain ⟨-, -, hbytes⟩ := ofBytes_operands op b1 b2
  rw [encode, ofBytes_opcode, hbytes, Instr.length, Nat.add_comm, List.take_succ_cons]

/-- The opcode byte alone tells the length (30_encoding R62). -/
theorem ofBytes_length (op b1 b2 : Byte) : (ofBytes op b1 b2).length = (ofBytes op 0 0).length := by
  obtain ⟨-, -, hbytes⟩ := ofBytes_operands op b1 b2
  have hle := operand_bytes_length_le (ofBytes op 0 0).operand
  rw [Instr.length, Instr.length, hbytes, List.length_take]
  exact congrArg (1 + ·) (min_eq_left hle)

/-- The operand is what its mode reads from the two bytes after the opcode (30_encoding R56). -/
def ReadsFrom (b1 b2 : Byte) : Operand → Prop
  | .imp | .acc => True
  | .imm b | .zp b | .zpx b | .zpy b | .izx b | .izy b | .rel b | .pad b => b = b1
  | .abs w | .abx w | .aby w | .ind w => w = mkWord b2 b1

theorem readsFrom_of_bytes {o : Operand} {b1 b2 : Byte} (h : o.bytes = [b1, b2].take o.bytes.length) :
    ReadsFrom b1 b2 o := by
  cases o <;> cases h <;> simp [ReadsFrom]

/-- The map R59 at a well-formed instruction's opcode answers that instruction, its operand bytes being in place. -/
theorem ofBytes_of_operand_bytes {i : Instr} (h : i.wellFormed = true) {b1 b2 : Byte}
    (hb : i.operand.bytes = [b1, b2].take i.operand.bytes.length) : ofBytes i.opcode b1 b2 = i := by
  have ho := readsFrom_of_bytes hb
  clear hb
  cases i <;> cases ho
  case' jam.intro =>
    obtain rfl | rfl | rfl | rfl | rfl | rfl | rfl | rfl | rfl | rfl | rfl | rfl := Instr.wellFormed_jam h
  case' nopZp.refl => obtain rfl | rfl | rfl := Instr.wellFormed_nopZp h
  case' anc.refl => obtain rfl | rfl := Instr.wellFormed_anc h
  case' nopZpx.refl => obtain rfl | rfl | rfl | rfl | rfl | rfl := Instr.wellFormed_nopZpx h
  case' nopImp.intro => obtain rfl | rfl | rfl | rfl | rfl | rfl := Instr.wellFormed_nopImp h
  case' nopAbx.refl => obtain rfl | rfl | rfl | rfl | rfl | rfl := Instr.wellFormed_nopAbx h
  case' nopImm.refl => obtain rfl | rfl | rfl | rfl | rfl := Instr.wellFormed_nopImm h
  all_goals
    simp only [Instr.opcode]
    rfl

/-! ## The decoder -/

theorem decode_of_length_one {op : Byte} (h : (ofBytes op 0 0).length = 1) (rest : List Byte) :
    decode (op :: rest) = .ok (ofBytes op 0 0, rest) := by
  simp only [decode, h]

theorem decode_of_length_two {op : Byte} (h : (ofBytes op 0 0).length = 2) (b1 : Byte) (rest : List Byte) :
    decode (op :: b1 :: rest) = .ok (ofBytes op b1 0, rest) := by
  simp only [decode, h]

theorem decode_of_length_three {op : Byte} (h : (ofBytes op 0 0).length = 3) (b1 b2 : Byte) (rest : List Byte) :
    decode (op :: b1 :: b2 :: rest) = .ok (ofBytes op b1 b2, rest) := by
  simp only [decode, h]

/-- Decoding takes back what encoding wrote and leaves the bytes after it, one case per operand length. -/
theorem decode_encode {i : Instr} (h : i.wellFormed = true) (rest : List Byte) :
    decode (encode i ++ rest) = .ok (i, rest) := by
  have hlen {b1 b2 : Byte} (hi : ofBytes i.opcode b1 b2 = i) :
      (ofBytes i.opcode 0 0).length = 1 + i.operand.bytes.length := by
    rw [← ofBytes_length i.opcode b1 b2, hi, Instr.length]
  have hle := operand_bytes_length_le i.operand
  rw [encode]
  rcases hb : i.operand.bytes with - | ⟨b1, - | ⟨b2, - | ⟨b3, bs⟩⟩⟩
  · have hi : ofBytes i.opcode 0 0 = i := ofBytes_of_operand_bytes h (by rw [hb]; rfl)
    exact (decode_of_length_one (by rw [hlen hi, hb]; rfl) rest).trans (by rw [hi])
  · have hi : ofBytes i.opcode b1 0 = i := ofBytes_of_operand_bytes h (by rw [hb]; rfl)
    exact (decode_of_length_two (by rw [hlen hi, hb]; rfl) b1 rest).trans (by rw [hi])
  · have hi : ofBytes i.opcode b1 b2 = i := ofBytes_of_operand_bytes h (by rw [hb]; rfl)
    exact (decode_of_length_three (by rw [hlen hi, hb]; rfl) b1 b2 rest).trans (by rw [hi])
  · simp [hb] at hle

/-- Settles O52: the opcode tells the length, and the map R59 gives back the instruction from as many bytes. -/
theorem decodeOfEncodeIsTheInstruction : Obligations.DecodeOfEncodeIsTheInstruction :=
  fun _ rest h => decode_encode h rest

/-- What decodes is well formed, and the bytes consumed are its encoding (30_encoding R61). -/
theorem eq_encode_of_decode {bs rest : List Byte} {i : Instr} (h : decode bs = .ok (i, rest)) :
    i.wellFormed = true ∧ bs = encode i ++ rest := by
  unfold decode at h
  split at h
  · cases h
  · split at h
    case h_4 => cases h
    all_goals
      next hlen =>
        cases h
        refine ⟨ofBytes_wellFormed .., ?_⟩
        rw [encode_ofBytes, hlen]
        rfl

/-- Three bytes hold a whole instruction: no opcode is refused (30_encoding R61). -/
theorem decode_three (op b1 b2 : Byte) (bs : List Byte) :
    decode (op :: b1 :: b2 :: bs) = .ok (ofBytes op b1 b2, [op, b1, b2].drop (ofBytes op 0 0).length ++ bs) := by
  rw [← decode_encode (ofBytes_wellFormed op b1 b2), encode_ofBytes, ← List.append_assoc, List.take_append_drop]
  rfl

theorem encode_injective {i j : Instr} (hi : i.wellFormed = true) (hj : j.wellFormed = true)
    (h : encode i = encode j) : i = j := by
  have hd := decode_encode hi []
  rw [h, decode_encode hj] at hd
  cases hd
  rfl

/-- Settles O53: three bytes are enough for every opcode, the decoder's answer encodes to the bytes it consumed, and
decoding undoes encoding. -/
theorem everyByteStringDecodesOneWay : Obligations.EveryByteStringDecodesOneWay := by
  refine ⟨fun bs hbs => ?_, fun bs rest i h => ?_, fun i j hi hj h => encode_injective hi hj h⟩
  · match bs, hbs with
    | op :: b1 :: b2 :: bs, _ => exact ⟨_, _, decode_three op b1 b2 bs⟩
  · obtain ⟨hwf, hbs⟩ := eq_encode_of_decode h
    have hle := operand_bytes_length_le i.operand
    rw [Instr.length]
    exact ⟨hwf, hbs, by omega, by omega⟩

/-- Settles O33: the three bytes at PC decode to what the fetch takes. -/
theorem stepRunsTheDecodedInstruction : Obligations.StepRunsTheDecodedInstruction := by
  intro i rest s h0 hr hd
  rw [decode_three] at hd
  cases hd
  refine ⟨ofBytes_wellFormed .., ?_⟩
  rw [step, if_pos h0, hr, if_neg Bool.false_ne_true, fetchInstr]

/-- Settles O54: the decoder run on each of them. -/
theorem writtenOutWordsDecode : Obligations.WrittenOutWordsDecode :=
  ⟨rfl, rfl, rfl, rfl, rfl, rfl, rfl, rfl, rfl, rfl, rfl, rfl, rfl⟩

end Sys2Proof.Machine

/-! PROOFS of the family 40_sequencer: JAM halts the core (O27), the poll points (O46), the bus accesses of each kind of
instruction (O34 to O37), what a reading instruction's result depends on (O29) and the documented cycle counts (O38). -/

namespace Sys2Proof.Machine

open Sys2Proof

/-! ## The entry an opcode leads to -/

/-- A well-formed instruction's opcode leads to its own entry (40_sequencer R104): its operand bytes, zeros after them,
are what the map R59 reads. -/
theorem entryAt_opcode {i : Instr} (h : i.wellFormed = true) : entryAt i.opcode = entryOf i := by
  have hle := operand_bytes_length_le i.operand
  obtain ⟨b1, b2, hb⟩ : ∃ b1 b2, i.operand.bytes = [b1, b2].take i.operand.bytes.length := by
    generalize i.operand.bytes = bs at hle ⊢
    rcases bs with - | ⟨b1, - | ⟨b2, - | ⟨b3, bs⟩⟩⟩
    · exact ⟨0, 0, rfl⟩
    · exact ⟨b1, 0, rfl⟩
    · exact ⟨b1, b2, rfl⟩
    · simp at hle
  rw [← entryOf_ofBytes i.opcode b1 b2, ofBytes_of_operand_bytes h hb]

/-- The entry names the mode of its instruction. -/
theorem entryOf_mode (i : Instr) : (entryOf i).mode = i.operand.mode := by
  cases i <;> rfl

/-- Which opcodes a mnemonic has, and in which modes, can be read from the 256 entries of the table. -/
theorem encoded_of_table {m : Mnemonic} {rows : List (Byte × Mode)}
    (h : ∀ op : Byte, (entryAt op).mnemonic = m ↔ (op, (entryAt op).mode) ∈ rows) : Encoded m rows := by
  intro i hi
  have hop := h i.opcode
  rwa [entryAt_opcode hi, entryOf_mnemonic, entryOf_mode] at hop

/-- A ready instruction's opcode stands at PC, where no device is. -/
theorem Ready.opcode {i : Instr} {s : State} (h : Ready i s) : s.peek s.pc = i.opcode := by
  obtain ⟨-, -, ⟨-, hop, -⟩, -⟩ := h
  exact hop

/-- With no interrupt to serve, the step runs the instruction that stands at PC. -/
theorem step_eq_exec {i : Instr} {s : State} (hi : i.wellFormed = true) (hr : Ready i s)
    (hq : s.intRequested = false) : step s = exec i s := by
  obtain ⟨h0, -⟩ := id hr
  rw [step, if_pos h0, hq, if_neg Bool.false_ne_true, exec_eq_run, exec_eq_run, fetchInstr, entryOf_ofBytes,
    hr.opcode, entryAt_opcode hi]

/-! ## JAM -/

/-- An opcode fetch that reads a JAM has jammed the core (47_unofficial R190). -/
theorem beginFetch_jammed {op : Byte} {s : State} (hi : (Instr.jam op).wellFormed = true) (hr : Ready (.jam op) s) :
    (beginFetch s).jammed := by
  have hop : (beginFetch s).opcode = op := hr.opcode
  refine ⟨by rw [beginFetch_t]; decide, rfl, ?_⟩
  rw [hop]
  exact congrArg Entry.mnemonic (entryAt_opcode hi)

/-- A jammed core stays where it is under the instruction-level step too. -/
theorem step_of_jammed {s : State} (hj : s.jammed) : step s = .next s := by
  obtain ⟨h0, -⟩ := id hj
  rw [step_eq_finish, State.begun_of_within h0, State.template_of_jammed hj, finish_halt]

/-- No host operation but reset lets a jammed core go on: the tick changes nothing, and the setters and the DMA stages
do not touch the sequence (60_exceptions R206). -/
theorem hostStep_of_jammed {o : HostOp} {s : State} (hj : s.jammed) (ho : o ≠ .reset) :
    ∃ t, hostStep o s = .next t ∧ t.jammed ∧ t.t = s.t ∧ t.pc = s.pc ∧ t.regs = s.regs ∧
      t.intRequested = s.intRequested := by
  cases o with
  | step => exact ⟨s, tick_of_jammed hj, hj, rfl, rfl, rfl, rfl⟩
  | reset => exact absurd rfl ho
  | setNmiLine v => exact ⟨_, rfl, hj, rfl, rfl, rfl, rfl⟩
  | request src => exact ⟨_, rfl, hj, rfl, rfl, rfl, rfl⟩
  | acknowledge src => exact ⟨_, rfl, hj, rfl, rfl, rfl, rfl⟩
  | dmaRead a => exact ⟨_, rfl, hj, rfl, rfl, rfl, rfl⟩
  | dmaWrite a v => exact ⟨_, rfl, hj, rfl, rfl, rfl, rfl⟩

/-- Settles O27: a JAM runs the halt template, which ends in the state after the opcode fetch, and there every tick
stays. -/
theorem jamHaltsUntilReset : Obligations.JamHaltsUntilReset := by
  refine ⟨encoded_of_table (by decide), fun op s hi hr => ?_, fun s hj => ⟨tick_of_jammed hj, step_of_jammed hj⟩,
    fun o s hj ho => hostStep_of_jammed hj ho, fun s v src _ => ⟨rfl, rfl, rfl⟩,
    fun s _ => ⟨_, rfl, rfl, rfl⟩⟩
  obtain ⟨h0, -⟩ := id hr
  exact ⟨_, run_tJam s h0, beginFetch_jammed hi hr, rfl, rfl, rfl, rfl, rfl, rfl, rfl, rfl, rfl⟩

/-! ## The poll points -/

/-- When a sequence polls (40_sequencer R72); the halt has no cycle that could. -/
def Template.pollRule : Template → Option PollRule
  | .halt => none
  | .cycles poll _ => some poll

/-- A branch polls at cycle 2, BRK by its own rule, every other sequence but the halt at its last cycle. -/
theorem entryOf_pollRule (i : Instr) :
    (entryOf i).template.pollRule =
      if (entryOf i).pattern = .halt then none
      else if (entryOf i).pattern = .branch then some .atCycle2
      else if (entryOf i).mnemonic = .brk then some .brk
      else some .atLast := by
  cases i <;> rfl

/-- Cycle 1 leaves the service latch clear: the entry clears it, and an opcode fetch finds it clear (60_exceptions
R199). -/
theorem State.begun_latch_of_boundary {s : State} (h0 : s.t = 0) : s.begun.intRequested = false := by
  cases hr : s.intRequested
  · rw [State.begun_of_fetch h0 hr, beginFetch_intRequested, hr]
  · rw [State.begun_of_entry h0 hr, beginEntry_intRequested]

/-- A tick within a sequence writes the service latch when the active template's rule polls and at no other time; the
cycle is last when `t` returns to 0 (60_exceptions R197, R198). -/
theorem tick_latch {s t : State} (h0 : s.t ≠ 0) (h : tick s = .next t) :
    t.intRequested =
      if s.template.pollRule.any fun p => p.polls s (decide (t.t = 0)) then s.pollAnswer else s.intRequested := by
  rw [tick_of_within h0] at h
  obtain ⟨hT, rfl⟩ | ⟨poll, ds, d, hT, -, -, -, hlatch, -, hend, hgo⟩ := cycle_proper (template_proper s) h0 h
  · rw [hT]
    rfl
  · have hlast : d.last.holds s = decide (t.t = 0) := by
      cases hl : d.last.holds s
      · obtain ⟨ht, -⟩ := hgo hl
        exact (decide_eq_false fun h => by simp [h] at ht).symm
      · exact (decide_eq_true (hend hl)).symm
    rw [hT, hlatch, hlast]
    rfl

/-- The active sequence polls by BRK's rule in an interrupt entry, else as its opcode's entry does (R68). -/
theorem State.template_pollRule (s : State) :
    s.template.pollRule =
      if s.synthetic = true then some .brk
      else if (entryAt s.opcode).pattern = .halt then none
      else if (entryAt s.opcode).pattern = .branch then some .atCycle2
      else if (entryAt s.opcode).mnemonic = .brk then some .brk
      else some .atLast := by
  rw [State.template]
  split
  · rfl
  · exact entryOf_pollRule _

/-- Settles O46: cycle 1 leaves the latch clear; after it the active template's poll rule decides. -/
theorem pollPointsAreThoseOfTheRule : Obligations.PollPointsAreThoseOfTheRule := by
  intro s t h e
  by_cases h0 : s.t = 0
  · rw [tick_of_boundary h0] at h
    injection h with h
    rw [if_pos h0, ← h, State.begun_latch_of_boundary h0]
  · rw [if_neg h0, tick_latch h0 h, State.template_pollRule]
    cases hs : s.synthetic <;> simp only [Bool.false_eq_true, if_false, if_true, false_or, true_or]
    case true => simp [PollRule.polls, hs]
    case false =>
      split
      · rfl
      split
      · simp [PollRule.polls]
      split
      · simp [PollRule.polls, hs]
      · simp [PollRule.polls]

/-! ## The accesses of each kind of instruction -/

/-- An operand in memory is that of its mode's template. -/
theorem memMode_of_effAddr {o : Operand} {s : State} {a : Word} (h : o.effAddr s = some a) :
    memMode o = some (memModeOf o.mode) := by
  cases o <;> first | rfl | cases h

/-- Settles O34: a reading instruction's template is that of its memory mode, or of the immediate one. -/
theorem readBusAccesses : Obligations.ReadBusAccesses := by
  intro i s hp hr
  obtain ⟨h0, -, -, hptr⟩ := id hr
  cases kind i with
  | imm op h _ ho =>
    obtain ⟨b, ho⟩ := ho
    obtain ⟨t, ht, -, -, hbus⟩ := run_tImm op s h0 rfl
    exact ⟨t, by rw [exec_eq_run, h, ht], by rw [ho]; exact hbus⟩
  | read m op h _ ho =>
    obtain ⟨t, ea, hea, ht, -, -, hbus⟩ := readTemplate_bus op h0 ho hr.operand hptr
    exact ⟨t, by rw [exec_eq_run, h, ht], by rw [hea]; exact hbus⟩
  | _ => cases hp.symm.trans ‹(entryOf i).pattern = _›

/-- The accesses of an instruction that stores what its WriteOp gives (40_sequencer R77 to R92). -/
theorem exec_write_bus {i : Instr} {s : State} {a : Word} {op : WriteOp} (hr : Ready i s)
    (ha : i.operand.effAddr s = some a) (hm : meaning i.mnemonic i.operand.mode = .write op) :
    ∃ t, exec i s = .next t ∧ t.bus = s.bus.after 1 (leadAccesses i.operand s true ++ [.write a (op s.regs)]) := by
  obtain ⟨h0, -, -, hptr⟩ := id hr
  obtain ⟨t, ea, hea, ht, -, -, hbus⟩ := writeTemplate_plain op h0 (memMode_of_effAddr ha) hr.operand hptr
  obtain rfl : ea = a := Option.some.inj (hea.symm.trans ha)
  exact ⟨t, by rw [exec_eq_run_meaning, hm]; exact ht, hbus⟩

/-- Settles O35: each of the four mnemonics stores what its WriteOp gives, in every mode. -/
theorem storeBusAccesses : Obligations.StoreBusAccesses := by
  intro i s a hr ha row hrow hm
  simp only [List.mem_cons, List.not_mem_nil, or_false] at hrow
  obtain rfl | rfl | rfl | rfl := hrow
  · exact exec_write_bus (op := opSta) hr ha (by rw [hm]; rfl)
  · exact exec_write_bus (op := opStx) hr ha (by rw [hm]; rfl)
  · exact exec_write_bus (op := opSty) hr ha (by rw [hm]; rfl)
  · exact exec_write_bus (op := opSax) hr ha (by rw [hm]; rfl)

/-- The accesses of an instruction that modifies memory by its RmwOp (40_sequencer R78 to R93). -/
theorem exec_modify_bus {i : Instr} {s : State} {a : Word} {op : RmwOp} (hr : Ready i s)
    (ha : i.operand.effAddr s = some a) (hm : meaning i.mnemonic i.operand.mode = .modify op) :
    ∃ t, exec i s = .next t ∧
      t.bus = s.bus.after 1 (leadAccesses i.operand s true ++
        [.read a, .write a (s.modifyByte i.operand a), .write a (op s.regs (s.modifyByte i.operand a)).2]) := by
  obtain ⟨h0, -, -, hptr⟩ := id hr
  obtain ⟨t, ea, hea, ht, -, -, hbus⟩ := rmwTemplate_bus op h0 (memMode_of_effAddr ha) hr.operand hptr
  obtain rfl : ea = a := Option.some.inj (hea.symm.trans ha)
  exact ⟨t, by rw [exec_eq_run_meaning, hm]; exact ht, hbus⟩

/-- A shift or rotate with an operand in memory modifies it. -/
theorem shiftMeaning_of_effAddr {o : Operand} {s : State} {a : Word} (h : o.effAddr s = some a) (op : RmwOp) :
    shiftMeaning op o.mode = .modify op := by
  cases o <;> first | rfl | cases h

/-- Settles O36: each of the mnemonics modifies memory by an RmwOp whose second component is the result; the
combined opcodes write what the modifying half gives (40_sequencer R69). -/
theorem modifyBusAccesses : Obligations.ModifyBusAccesses := by
  intro i s a hr ha v rol ror row hrow hm
  refine ⟨fun hp => modifyByte_plain hp _, ?_⟩
  have hshift (op : RmwOp) := shiftMeaning_of_effAddr ha op
  have hrol : rol = (opRol s.regs v).2 := congrArg Prod.snd (rotRol_eq s.regs v).symm
  have hror : ror = (opRor s.regs v).2 := congrArg Prod.snd (rotRor_eq s.regs v).symm
  rw [hrol, hror] at hrow
  simp only [List.mem_cons, List.not_mem_nil, or_false] at hrow
  obtain rfl | rfl | rfl | rfl | rfl | rfl | rfl | rfl | rfl | rfl | rfl | rfl := hrow
  · exact exec_modify_bus (op := opAsl) hr ha (by rw [hm]; exact hshift _)
  · exact exec_modify_bus (op := opSlo) hr ha (by rw [hm]; rfl)
  · exact exec_modify_bus (op := opLsr) hr ha (by rw [hm]; exact hshift _)
  · exact exec_modify_bus (op := opSre) hr ha (by rw [hm]; rfl)
  · exact exec_modify_bus (op := opRol) hr ha (by rw [hm]; exact hshift _)
  · exact exec_modify_bus (op := opRla) hr ha (by rw [hm]; rfl)
  · exact exec_modify_bus (op := opRor) hr ha (by rw [hm]; exact hshift _)
  · exact exec_modify_bus (op := opRra) hr ha (by rw [hm]; rfl)
  · exact exec_modify_bus (op := opInc) hr ha (by rw [hm]; rfl)
  · exact exec_modify_bus (op := opIsc) hr ha (by rw [hm]; rfl)
  · exact exec_modify_bus (op := opDec) hr ha (by rw [hm]; rfl)
  · exact exec_modify_bus (op := opDcp) hr ha (by rw [hm]; rfl)

/-- The accesses of an implied or accumulator instruction (40_sequencer R74). -/
theorem exec_implied_bus {i : Instr} {s : State} (hp : (entryOf i).pattern = .implied) (h0 : s.t = 0) :
    ∃ t, exec i s = .next t ∧ t.bus = s.bus.after 1 [.read s.pc, .read (s.pc + 1)] := by
  cases kind i with
  | imp op h _ =>
    obtain ⟨t, ht, -, -, hbus⟩ := run_tImp op s h0
    exact ⟨t, by rw [exec_eq_run, h, ht], hbus⟩
  | _ => cases hp.symm.trans ‹(entryOf i).pattern = _›

/-- Settles O37: one template each for the implied, the push and the pull instructions. -/
theorem impliedAndStackBusAccesses : Obligations.ImpliedAndStackBusAccesses := by
  refine ⟨fun i s hp h0 => exec_implied_bus hp h0, fun s h0 => ?_⟩
  obtain ⟨t, ht, -, -, hpha⟩ := run_tPush opPha s h0
  obtain ⟨u, hu, -, -, hphp⟩ := run_tPush opPhp s h0
  obtain ⟨v, hv, -, -, hpla⟩ := run_tPull opPla s h0 rfl
  obtain ⟨w, hw, -, -, hplp⟩ := run_tPull opPlp s h0 rfl
  exact ⟨⟨t, ht, hpha⟩, ⟨u, hu, hphp⟩, ⟨v, hv, hpla⟩, w, hw, hplp⟩

/-! ## What a reading instruction's result depends on -/

/-- The meaning takes a byte read from memory or from the instruction. -/
def Meaning.Reads : Meaning → Prop
  | .read _ => True
  | .readWith _ => True
  | _ => False

/-- A mnemonic with the read pattern means the same in all its modes, and it reads (40_sequencer R108). -/
theorem meaning_of_read_pattern {i : Instr} (hp : (entryOf i).pattern = .read) :
    meaning i.mnemonic i.operand.mode = meaning i.mnemonic .zp ∧ (meaning i.mnemonic .zp).Reads := by
  cases i <;> first | exact ⟨rfl, trivial⟩ | cases hp

/-- A reading meaning, run whole between instructions on any bus, makes a read last, and the registers it leaves are its
operation's for the byte of that read (40_sequencer R70). -/
theorem Meaning.Reads.run_regs {M : Meaning} (hM : M.Reads) (mode : Mode) {s : State} (h0 : s.t = 0) :
    ∃ t e l, run (M.template mode) s = .next t ∧ t.bus.trace = e :: l ∧ e.kind = .read ∧
      t.regs = M.regsAfter s.params s.regs e.value := by
  have last {t : State} {lead : List Access} {a : Word} (hb : t.bus = s.bus.after 1 (lead ++ [.read a])) :
      ∃ e l, t.bus.trace = e :: l ∧ e.kind = .read ∧ e.value = (s.bus.after 1 lead).answer a :=
    ⟨_, _, by rw [hb, Bus.after_append, Bus.after_read, Bus.after_nil, Bus.read_trace], rfl, rfl⟩
  have imm (op : Config.Params → ReadOp) : ∃ t e l, run (tImm op) s = .next t ∧ t.bus.trace = e :: l ∧
      e.kind = .read ∧ t.regs = op s.params s.regs e.value := by
    obtain ⟨t, ht, hs, -, hb⟩ := run_tImm op s h0 rfl
    obtain ⟨e, l, htr, hk, hv⟩ := last (lead := [_]) hb
    exact ⟨t, e, l, ht, htr, hk, by rw [hv]; exact hs.regs⟩
  cases M with
  | read op =>
    simp only [Meaning.template]
    split
    · exact imm fun _ => op
    · obtain ⟨t, pc, lead, a, ht, hs, -, hb⟩ := run_read (memModeOf mode) op h0
      obtain ⟨e, l, htr, hk, hv⟩ := last hb
      exact ⟨t, e, l, ht, htr, hk, by rw [hv]; exact hs.regs⟩
  | readWith op => exact imm op
  | _ => exact hM.elim

/-- Settles O29: both instructions have one meaning, whose operation is a function of the parameters, the registers and
the byte of the last read. -/
theorem readResultDependsOnlyOnTheByteRead : Obligations.ReadResultDependsOnlyOnTheByteRead := by
  intro i j s u hm hi hj hs0 hu0 hregs hparams
  obtain ⟨hMi, hreads⟩ := meaning_of_read_pattern hi
  obtain ⟨hMj, -⟩ := meaning_of_read_pattern hj
  rw [← hm] at hMj
  obtain ⟨s', e, l, hs', hl, he, hrs⟩ := hreads.run_regs i.operand.mode hs0
  obtain ⟨u', f, k, hu', hk, hf, hru⟩ := hreads.run_regs j.operand.mode hu0
  refine ⟨s', u', e, f, l, k, ?_, ?_, hl, hk, he, hf, fun hv => ?_⟩
  · rw [exec_eq_run_meaning, hMi, hs']
  · rw [exec_eq_run_meaning, ← hm, hMj, hu']
  · rw [hrs, hru, hregs, hparams, hv]

/-! ## Counting ticks -/

/-- The first return to `t = 0` is after `n` ticks (40_sequencer R105). -/
def ReturnsAfter (n : Nat) (s : State) : Prop :=
  (∃ t, ticks n s = .next t ∧ t.t = 0) ∧ ∀ k, 0 < k → k < n → ∃ t, ticks k s = .next t ∧ t.t ≠ 0

theorem ticks_succ {s u : State} (h : tick s = .next u) (n : Nat) : ticks (n + 1) s = ticks n u := by
  rw [ticks, h]

/-- One tick that does not return to `t = 0` puts the return off by one. -/
theorem ReturnsAfter.succ {s u : State} {n : Nat} (h : tick s = .next u) (hu : u.t ≠ 0) (hn : ReturnsAfter n u) :
    ReturnsAfter (n + 1) s := by
  obtain ⟨hend, hmid⟩ := hn
  refine ⟨by rwa [ticks_succ h], fun k hk hkn => ?_⟩
  obtain - | - | k := k
  · exact absurd hk (Nat.lt_irrefl 0)
  · exact ⟨u, ticks_succ h 0, hu⟩
  · rw [ticks_succ h]
    exact hmid (k + 1) (Nat.succ_pos k) (Nat.lt_of_succ_lt_succ hkn)

/-- A jammed core stays where it is however long it is ticked. -/
theorem ticks_of_jammed {s : State} (hj : s.jammed) (n : Nat) : ticks n s = .next s := by
  induction n with
  | zero => rfl
  | succ n ih => rw [ticks_succ (tick_of_jammed hj), ih]

theorem ticksToBoundary_of_jammed {s : State} (hj : s.jammed) (n : Nat) : ticksToBoundary n s = .next s := by
  induction n with
  | zero => rfl
  | succ n ih =>
    rw [ticksToBoundary, tick_of_jammed hj]
    exact (if_neg hj.1).trans ih

/-- Each tick records one event, so the ticks up to the boundary are as many as the events recorded (20_memory R39). -/
theorem returnsAfter_trace_length (m : Nat) : ∀ {s t : State}, ticksToBoundary m s = .next t → t.t = 0 →
    ∃ n, t.bus.trace.length = s.bus.trace.length + n ∧ ReturnsAfter n s := by
  induction m with
  | zero =>
    intro s t h ht
    obtain rfl : s = t := by injection h
    exact ⟨0, rfl, ⟨s, rfl, ht⟩, fun k _ hk => absurd hk (Nat.not_lt_zero k)⟩
  | succ m ih =>
    intro s t h ht
    have hj : ¬ s.jammed := fun hj => by
      rw [ticksToBoundary_of_jammed hj] at h
      obtain rfl : s = t := by injection h
      exact hj.1 ht
    rw [ticksToBoundary] at h
    split at h
    · next u hu =>
      obtain ⟨e, htrace, -, -⟩ := tick_trace hu hj
      have hlen : u.bus.trace.length = s.bus.trace.length + 1 := by rw [htrace, List.length_cons]
      split at h
      · next hu0 =>
        obtain rfl : u = t := by injection h
        exact ⟨1, hlen, ⟨u, ticks_succ hu 0, hu0⟩, fun k _ _ => by omega⟩
      · next hu0 =>
        obtain ⟨n, hn, hret⟩ := ih h ht
        exact ⟨n + 1, by omega, hret.succ hu hu0⟩
    · cases h
    · cases h

/-- A sequence begun between instructions returns after as many ticks as the accesses the step makes. -/
theorem step_returnsAfter {s t : State} {l : List Access} (h0 : s.t = 0) (h : step s = .next t) (ht : t.t = 0)
    (hb : t.bus = s.bus.after 1 l) : ReturnsAfter l.length s := by
  rw [step_eq_finish, finish_eq_ticksToBoundary 8 s.begun_t_ne_zero] at h
  obtain ⟨n, hlen, hret⟩ := returnsAfter_trace_length 8 h ht
  rw [hb, Bus.after_trace_length, State.begun_bus_of_boundary h0, Bus.read_trace, List.length_cons] at hlen
  have hn : l.length = n + 1 := by omega
  rw [hn]
  exact hret.succ (tick_of_boundary h0) s.begun_t_ne_zero

/-- The interrupt entry is seven accesses long (60_exceptions R201). -/
theorem entry_returnsAfter {s : State} (h0 : s.t = 0) (hr : s.intRequested = true) : ReturnsAfter 7 s := by
  obtain ⟨t, ht, hs, -, hb⟩ := takeInterrupt_of_boundary s h0 rfl rfl
  exact step_returnsAfter h0 (by rw [step, if_pos h0, if_pos hr, ht]) hs.done hb

/-- A JAM is fetched in one tick, and there `t` stays. -/
theorem ticks_jam {op : Byte} {s : State} (hi : (Instr.jam op).wellFormed = true) (hr : Ready (.jam op) s)
    (hq : s.intRequested = false) {k : Nat} (hk : 0 < k) : ticks k s = .next (beginFetch s) := by
  obtain ⟨h0, -⟩ := id hr
  obtain ⟨n, rfl⟩ := Nat.exists_eq_succ_of_ne_zero hk.ne'
  rw [ticks_succ (tick_of_boundary h0), State.begun_of_fetch h0 hq, ticks_of_jammed (beginFetch_jammed hi hr)]

/-! ## The documented cycle counts -/

/-- The documented base count of every instruction is that of its template (40_sequencer R105, R107). -/
theorem documentedCycles_eq_baseCount (i : Instr) :
    documentedCycles (entryOf i).pattern i.operand.mode i.mnemonic = (entryOf i).template.baseCount := by
  cases i <;> rfl

theorem cyclesOf_eq (i : Instr) (s : State) :
    cyclesOf i s = (entryOf i).template.baseCount.map (· + extraCycles i s) := by
  rw [cyclesOf, documentedCycles_eq_baseCount]

theorem extraCycles_of_read {i : Instr} (hp : (entryOf i).pattern = .read) (s : State) :
    extraCycles i s = if i.operand.crosses s then 1 else 0 := by
  simp only [extraCycles, hp]

theorem extraCycles_of_branch {i : Instr} (hp : (entryOf i).pattern = .branch) {off : Byte} (ho : i.operand = .rel off)
    (s : State) :
    extraCycles i s =
      if takenIn i.mnemonic s.regs then (if hiByte (s.relTarget off) = hiByte s.pcNext then 1 else 2) else 0 := by
  simp only [extraCycles, hp, ho]

/-- Only reads and branches have conditional cycles. -/
theorem extraCycles_eq_zero {i : Instr} {p : Pattern} (hp : (entryOf i).pattern = p)
    (hfixed : p ≠ .read ∧ p ≠ .branch) (s : State) : extraCycles i s = 0 := by
  obtain ⟨hread, hbranch⟩ := hp ▸ hfixed
  unfold extraCycles
  split
  · contradiction
  · contradiction
  · rfl

/-- A branch has a relative operand, and its template's condition is the one of 45_control R149. -/
theorem branch_template {i : Instr} (hp : (entryOf i).pattern = .branch) :
    ∃ off, i.operand = .rel off ∧ (entryOf i).template = tRel (takenIn i.mnemonic) := by
  cases i <;> first | exact ⟨_, rfl, rfl⟩ | cases hp

/-- A read template's count is one cycle per access: the page cross costs the read of the uncorrected address. -/
theorem readTemplate_count {o : Operand} {m : MemMode} (ho : memMode o = some m) (op : ReadOp) (s : State) (a : Word) :
    (readTemplate m op).baseCount.map (· + if o.crosses s then 1 else 0) =
      some (leadAccesses o s false ++ [Access.read a]).length := by
  cases o <;> cases ho
  case abx | aby | izy => simp only [leadAccesses, Bool.false_or]; split <;> rfl
  all_goals rfl

theorem writeTemplate_count {o : Operand} {m : MemMode} (ho : memMode o = some m) (op : WriteOp) (s : State) (a : Word)
    (v : Byte) : (writeTemplate m op).baseCount = some (leadAccesses o s true ++ [Access.write a v]).length := by
  cases o <;> cases ho <;> rfl

theorem rmwTemplate_count {o : Operand} {m : MemMode} (ho : memMode o = some m) (op : RmwOp) (s : State) (a : Word)
    (v w : Byte) :
    (rmwTemplate m op).baseCount =
      some (leadAccesses o s true ++ [Access.read a, Access.write a v, Access.write a w]).length := by
  cases o <;> cases ho <;> rfl

/-- Begun in `s`, the instruction ends after as many accesses as its documented cycles. -/
def Counted (i : Instr) (s : State) : Prop :=
  ∃ t l, exec i s = .next t ∧ t.t = 0 ∧ t.bus = s.bus.after 1 l ∧ cyclesOf i s = some l.length

theorem Counted.of_run {i : Instr} {s t : State} {T : Template} {r : Regs} {pc : Word} {latch : Bool} {l : List Access}
    (h : (entryOf i).template = T) (ht : run T s = .next t) (hs : Settled s t r pc latch) (hb : t.bus = s.bus.after 1 l)
    (hn : T.baseCount.map (· + extraCycles i s) = some l.length) : Counted i s :=
  ⟨t, l, by rw [exec_eq_run, h, ht], hs.done, hb, by rw [cyclesOf_eq, h, hn]⟩

/-- The same without conditional cycles. -/
theorem Counted.of_run_fixed {i : Instr} {s t : State} {T : Template} {r : Regs} {pc : Word} {latch : Bool}
    {l : List Access} {p : Pattern} (h : (entryOf i).template = T) (hp : (entryOf i).pattern = p)
    (ht : run T s = .next t) (hs : Settled s t r pc latch) (hb : t.bus = s.bus.after 1 l)
    (hn : T.baseCount = some l.length) (hfixed : p ≠ .read ∧ p ≠ .branch := by decide) : Counted i s :=
  .of_run h ht hs hb (by rw [hn, extraCycles_eq_zero hp hfixed]; rfl)

/-- A branch takes one cycle more when taken and another when its target is on another page (40_sequencer R94). -/
theorem counted_branch {i : Instr} {s : State} (hr : Ready i s) (hp : (entryOf i).pattern = .branch) : Counted i s := by
  obtain ⟨off, ho, hT⟩ := branch_template hp
  obtain ⟨h0, -⟩ := id hr
  have hbytes := hr.operand
  rw [ho] at hbytes
  obtain ⟨hplain, hoff⟩ := hbytes.one
  obtain ⟨t, ht, hs, -, hb⟩ := run_tRel (takenIn i.mnemonic) s h0 ((peek_after_reads hplain _ _ rfl).trans hoff)
  refine .of_run hT ht hs hb ?_
  rw [extraCycles_of_branch hp ho, State.relTarget, State.pcNext]
  split
  · split <;> rfl
  · rfl

/-- Every instruction but JAM makes one access in each of its documented cycles: one case per template. -/
theorem counted_of_ready {i : Instr} {s : State} (hr : Ready i s) (hj : i.mnemonic ≠ .jam) : Counted i s :=
  have ⟨h0, _, _, hptr⟩ := id hr
  match kind i with
  | .imp op h hp => have ⟨_, ht, hs, _, hb⟩ := run_tImp op s h0; .of_run_fixed h hp ht hs hb rfl
  | .imm op h hp ⟨b, ho⟩ =>
    have ⟨_, ht, hs, _, hb⟩ := run_tImm op s h0 rfl
    .of_run h ht hs hb (by rw [extraCycles_of_read hp, ho]; rfl)
  | .read m op h hp ho =>
    have ⟨_, ea, _, ht, hs, _, hb⟩ := readTemplate_bus op h0 ho hr.operand hptr
    .of_run h ht hs hb (by rw [extraCycles_of_read hp]; exact readTemplate_count ho op s ea)
  | .write m op h hp ho =>
    have ⟨_, _, _, ht, hs, _, hb⟩ := writeTemplate_plain op h0 ho hr.operand hptr
    .of_run_fixed h hp ht hs hb (writeTemplate_count ho ..)
  | .rmw m op h hp ho _ =>
    have ⟨_, _, _, ht, hs, _, hb⟩ := rmwTemplate_bus op h0 ho hr.operand hptr
    .of_run_fixed h hp ht hs hb (rmwTemplate_count ho ..)
  | .unstableAbi ix r before h hp =>
    have ⟨_, ht, hs, _, hb⟩ := run_tAbiW_unstable ix r before s h0 rfl rfl; .of_run_fixed h hp ht hs hb rfl
  | .unstableIzy r before h hp =>
    have ⟨_, ht, hs, _, hb⟩ := run_tIzyW_unstable r before s h0 rfl rfl rfl; .of_run_fixed h hp ht hs hb rfl
  | .rel _ _ hp => counted_branch hr hp
  | .push v h hp => have ⟨_, ht, hs, _, hb⟩ := run_tPush v s h0; .of_run_fixed h hp ht hs hb rfl
  | .pull op h hp => have ⟨_, ht, hs, _, hb⟩ := run_tPull op s h0 rfl; .of_run_fixed h hp ht hs hb rfl
  | .jmpAbs h hp => have ⟨_, ht, hs, _, hb⟩ := run_tJmpAbs s h0 rfl rfl; .of_run_fixed h hp ht hs hb rfl
  | .jmpInd h hp => have ⟨_, ht, hs, _, hb⟩ := run_tJmpInd s h0 rfl rfl rfl rfl; .of_run_fixed h hp ht hs hb rfl
  | .jsr h hp => have ⟨_, ht, hs, _, hb⟩ := run_tJsr s h0 rfl rfl; .of_run_fixed h hp ht hs hb rfl
  | .rts h hp => have ⟨_, ht, hs, _, hb⟩ := run_tRts s h0 rfl rfl; .of_run_fixed h hp ht hs hb rfl
  | .rti h hp _ => have ⟨_, ht, hs, _, hb⟩ := run_tRti s h0 rfl rfl rfl; .of_run_fixed h hp ht hs hb rfl
  | .brk h hp _ => have ⟨_, ht, hs, _, hb⟩ := run_tBrk s h0 rfl rfl; .of_run_fixed h hp ht hs hb rfl
  | .jam _ _ hm => absurd hm hj

/-! ## The bounds of a count -/

theorem baseCycles_le_length (ds : List Descr) : baseCycles ds ≤ ds.length := by
  induction ds with
  | nil => exact Nat.le_refl 0
  | cons d ds ih =>
    rw [baseCycles, List.length_cons]
    split <;> omega

theorem baseCycles_cons_pos (d : Descr) (ds : List Descr) : 1 ≤ baseCycles (d :: ds) := by
  rw [baseCycles]
  split <;> omega

/-- The cycles of a proper template, the conditional ones included, are at least two and at most eight. -/
theorem Template.Proper.baseCount_bounds {T : Template} (hT : T.Proper) (hh : T ≠ .halt) :
    ∃ n, T.baseCount = some n ∧ 2 ≤ n ∧ n + T.extraCount ≤ 8 := by
  cases T with
  | halt => exact absurd rfl hh
  | cycles poll ds =>
    obtain ⟨-, hlen, d, hlast, -⟩ := hT
    have hle := baseCycles_le_length ds
    cases ds with
    | nil => cases hlast
    | cons d ds =>
      have hpos := baseCycles_cons_pos d ds
      exact ⟨_, rfl, by omega, by simp only [Template.extraCount]; omega⟩

/-- An addressing mode whose read template has no conditional cycle never crosses a page. -/
theorem crosses_le_extraCount {o : Operand} {m : MemMode} (ho : memMode o = some m) (op : ReadOp) (s : State) :
    (if o.crosses s then 1 else 0) ≤ (readTemplate m op).extraCount := by
  cases o <;> cases ho
  case abx | aby | izy =>
    show _ ≤ 1
    split <;> omega
  all_goals exact Nat.le_refl 0

/-- An instruction takes no more conditional cycles than its template has. -/
theorem extraCycles_le_extraCount (i : Instr) (s : State) : extraCycles i s ≤ (entryOf i).template.extraCount := by
  cases kind i with
  | imm op h hp ho =>
    obtain ⟨b, ho⟩ := ho
    rw [extraCycles_of_read hp, ho]
    exact Nat.zero_le _
  | read m op h hp ho =>
    rw [extraCycles_of_read hp, h]
    exact crosses_le_extraCount ho op s
  | rel cond h hp =>
    obtain ⟨off, ho, -⟩ := branch_template hp
    rw [extraCycles_of_branch hp ho, h]
    show _ ≤ 2
    split
    · split <;> omega
    · omega
  | _ => rw [extraCycles_eq_zero ‹(entryOf i).pattern = _› (by decide)]; exact Nat.zero_le _

/-- Every instruction but JAM has a count, from two to eight. -/
theorem cyclesOf_bounds {i : Instr} (hj : i.mnemonic ≠ .jam) (s : State) :
    ∃ n, cyclesOf i s = some n ∧ 2 ≤ n ∧ n ≤ 8 := by
  obtain ⟨n, hn, hlo, hhi⟩ := (entry_proper i).baseCount_bounds fun h => hj ((entry_halt i).mp h)
  have hle := extraCycles_le_extraCount i s
  exact ⟨n + extraCycles i s, by rw [cyclesOf_eq, hn]; rfl, by omega, by omega⟩

/-- Settles O38: the ticks up to the return are as many as the accesses, one access in each documented cycle; the halt
stays at `t = 1`. -/
theorem cycleCountsAreDocumented : Obligations.CycleCountsAreDocumented := by
  refine ⟨fun i s n hi hr hq hn => ?_, fun i hj s => cyclesOf_bounds hj s, fun s h0 hq => entry_returnsAfter h0 hq,
    fun op s hi hr hq k hk => ⟨_, ticks_jam hi hr hq hk, beginFetch_t s⟩⟩
  have hj : i.mnemonic ≠ .jam := fun hm => by
    rw [cyclesOf_eq, (entry_halt i).mpr hm] at hn
    cases hn
  obtain ⟨t, l, ht, hdone, hb, hl⟩ := counted_of_ready hr hj
  obtain rfl : l.length = n := Option.some.inj (hl.symm.trans hn)
  obtain ⟨h0, -⟩ := id hr
  exact step_returnsAfter h0 ((step_eq_exec hi hr hq).trans ht) hdone hb

end Sys2Proof.Machine

/-! PROOFS of the family 41_alu: addition (O1) and subtraction (O2) with carry, the logical operations (O3), the
compares and BIT (O4). -/

namespace Sys2Proof.Machine

open Sys2Proof

/-! ## Instructions that read -/

/-- The access pattern of a meaning (40_sequencer R68); `entryOf_pattern` ties it to the OpcodeTable. -/
def Meaning.pattern : Meaning → Pattern
  | .implied _ => .implied
  | .read _ => .read
  | .readWith _ => .read
  | .write _ => .write
  | .modify _ => .rmw
  | .unstable _ _ => .write
  | .branch _ => .branch
  | .push _ => .bespoke
  | .pull _ => .bespoke
  | .jump => .bespoke
  | .jsr => .bespoke
  | .rts => .bespoke
  | .rti => .bespoke
  | .brk => .bespoke
  | .jam => .halt

/-- The pattern of every OpcodeTable entry is that of its instruction's meaning (40_sequencer R104). -/
theorem entryOf_pattern (i : Instr) : (entryOf i).pattern = (meaning i.mnemonic i.operand.mode).pattern := by
  cases i <;> rfl

/-- A reading meaning has, for an operand in memory, the read template of its memory mode. -/
theorem Meaning.read_template_of_memMode {o : Operand} {m : MemMode} (ho : memMode o = some m) (op : ReadOp) :
    (Meaning.read op).template o.mode = readTemplate m op := by
  cases o <;> cases ho <;> rfl

/-- An instruction that means a ReadOp completes in each of its modes with what that operation gives for its operand's
byte, and changes no memory (40_sequencer R69, R108). -/
theorem completes_of_meaning_read {i : Instr} {s : State} {op : ReadOp} {r : Regs}
    (hm : meaning i.mnemonic i.operand.mode = .read op) (hop : op s.regs (i.operand.value s) = r) (hr : Ready i s)
    (hd : DataPlain i.operand s) : Completes i s r (s.pcAfter i) s.peek := by
  have hp : (entryOf i).pattern = .read := by rw [entryOf_pattern, hm]; rfl
  have he : exec i s = run ((Meaning.read op).template i.operand.mode) s := by rw [exec_eq_run_meaning, hm]
  rw [← hop]
  cases kind i with
  | imm _ _ _ ho =>
    obtain ⟨b, ho⟩ := ho
    rw [ho] at he
    exact completes_imm (op := fun _ => op) ho he hr
  | read m _ _ _ ho =>
    rw [Meaning.read_template_of_memMode ho] at he
    exact completes_read ho he hr hd
  | _ => cases hp.symm.trans ‹(entryOf i).pattern = _›

/-! ## Addition and subtraction -/

/-- Settles O1: every mode means `addWithCarry`, whose flags `addWithCarry_eq` writes out. -/
theorem adcAddsWithCarryInBinary : Obligations.AdcAddsWithCarryInBinary := by
  refine ⟨encoded_of_table (by decide), fun i s hr hd hm => ?_⟩
  exact completes_of_meaning_read (by rw [hm]; rfl) (addWithCarry_eq ..) hr hd

/-- Subtraction with C set is the difference mod 256, so it undoes an addition with C clear (41_alu R109, R110). -/
theorem opSbc_opAdc_a (r : Regs) (b : Byte) :
    (opSbc { opAdc { r with c := false } b with c := true } b).a = r.a := by
  have hadc : (opAdc { r with c := false } b).a = r.a + b := by
    rw [opAdc, addWithCarry_eq]
    exact BitVec.eq_of_toNat_eq (BitVec.toNat_add ..).symm
  rw [opSbc, subWithBorrow_eq]
  calc (opAdc { r with c := false } b).a - b - 0
      = r.a + b - b := by rw [hadc]; exact BitVec.sub_zero _
    _ = r.a := BitVec.add_sub_cancel ..

/-- Settles O2: SBC and USBC mean one operation, whose flags `subWithBorrow_eq` writes out. -/
theorem sbcSubtractsWithInvertedBorrow : Obligations.SbcSubtractsWithInvertedBorrow := by
  refine ⟨encoded_of_table (by decide), encoded_of_table (by decide), fun i s hr hd hm => ?_, opSbc_opAdc_a⟩
  have hmean : meaning i.mnemonic i.operand.mode = .read subWithBorrow := by
    obtain hm | hm := hm <;> rw [hm] <;> rfl
  exact completes_of_meaning_read hmean (subWithBorrow_eq ..) hr hd

/-! ## Logic, compares and BIT -/

theorem opAnd_eq (r : Regs) (m : Byte) :
    opAnd r m = { r with a := r.a &&& m, n := (r.a &&& m).msb, z := r.a &&& m == 0 } := rfl

theorem opOra_eq (r : Regs) (m : Byte) :
    opOra r m = { r with a := r.a ||| m, n := (r.a ||| m).msb, z := r.a ||| m == 0 } := rfl

theorem opEor_eq (r : Regs) (m : Byte) :
    opEor r m = { r with a := r.a ^^^ m, n := (r.a ^^^ m).msb, z := r.a ^^^ m == 0 } := rfl

/-- Settles O3: the encodings are the table's, and each operation is `setNZ` of its result. -/
theorem logicOpsWriteAAndNZ : Obligations.LogicOpsWriteAAndNZ := by
  refine ⟨encoded_of_table (by decide), encoded_of_table (by decide), encoded_of_table (by decide),
    fun i s hr hd => ⟨fun hm => ?_, fun hm => ?_, fun hm => ?_⟩⟩
  · exact completes_of_meaning_read (by rw [hm]; rfl) (opAnd_eq ..) hr hd
  · exact completes_of_meaning_read (by rw [hm]; rfl) (opOra_eq ..) hr hd
  · exact completes_of_meaning_read (by rw [hm]; rfl) (opEor_eq ..) hr hd

/-- `Compare(v, m)` (41_alu R114) with N as the sign bit of the difference. -/
theorem compareFlags_eq (r : Regs) (v m : Byte) :
    compareFlags r v m = { r with c := decide (m.toNat ≤ v.toNat), z := v == m, n := (v - m).msb } := rfl

theorem opBit_eq (r : Regs) (m : Byte) :
    opBit r m = { r with z := r.a &&& m == 0, n := m.getLsbD 7, v := m.getLsbD 6 } := rfl

/-- Settles O4: each compare is `compareFlags` of its own register; BIT takes N and V from the operand. -/
theorem comparesAndBitOnlyWriteFlags : Obligations.ComparesAndBitOnlyWriteFlags := by
  refine ⟨encoded_of_table (by decide), encoded_of_table (by decide), encoded_of_table (by decide),
    encoded_of_table (by decide), fun i s hr hd => ⟨fun hm => ?_, fun hm => ?_, fun hm => ?_, fun hm => ?_⟩⟩
  · exact completes_of_meaning_read (op := opCmp) (by rw [hm]; rfl) (compareFlags_eq ..) hr hd
  · exact completes_of_meaning_read (op := opCpx) (by rw [hm]; rfl) (compareFlags_eq ..) hr hd
  · exact completes_of_meaning_read (op := opCpy) (by rw [hm]; rfl) (compareFlags_eq ..) hr hd
  · exact completes_of_meaning_read (by rw [hm]; rfl) (opBit_eq ..) hr hd

end Sys2Proof.Machine

/-! PROOFS of the family 42_load_store_transfer: the loads (O5), the stores and SAX (O7), the transfers (O8). -/

namespace Sys2Proof.Machine

open Sys2Proof

/-! ## Loads -/

theorem opLda_eq (r : Regs) (m : Byte) : opLda r m = { r with a := m, n := m.msb, z := m == 0 } := rfl

theorem opLdx_eq (r : Regs) (m : Byte) : opLdx r m = { r with x := m, n := m.msb, z := m == 0 } := rfl

theorem opLdy_eq (r : Regs) (m : Byte) : opLdy r m = { r with y := m, n := m.msb, z := m == 0 } := rfl

/-- Settles O5: each load means its own ReadOp in every mode, and that is `setNZ` of the byte it puts in the register. -/
theorem loadsWriteRegisterAndNZ : Obligations.LoadsWriteRegisterAndNZ := by
  refine ⟨encoded_of_table (by decide), encoded_of_table (by decide), encoded_of_table (by decide),
    fun i s hr hd => ⟨fun hm => ?_, fun hm => ?_, fun hm => ?_⟩⟩
  · exact completes_of_meaning_read (by rw [hm]; rfl) (opLda_eq ..) hr hd
  · exact completes_of_meaning_read (by rw [hm]; rfl) (opLdx_eq ..) hr hd
  · exact completes_of_meaning_read (by rw [hm]; rfl) (opLdy_eq ..) hr hd

/-! ## Stores -/

/-- An instruction that means a WriteOp completes in each of its modes with every register as before and with what that
operation gives stored at the effective address (40_sequencer R69, R108). -/
theorem completes_of_meaning_write {i : Instr} {s : State} {a : Word} {op : WriteOp}
    (hm : meaning i.mnemonic i.operand.mode = .write op) (hr : Ready i s) (ha : i.operand.effAddr s = some a) :
    Completes i s s.regs (s.pcAfter i) (stored s s.peek a (op s.regs)) :=
  completes_write (memMode_of_effAddr ha) (by rw [exec_eq_run_meaning, hm]; rfl) hr ha

/-- Settles O7: each of the four means its own WriteOp, which gives the byte stored. -/
theorem storesWriteOnlyTheirByte : Obligations.StoresWriteOnlyTheirByte := by
  refine ⟨encoded_of_table (by decide), encoded_of_table (by decide), encoded_of_table (by decide),
    encoded_of_table (by decide), fun i s a hr ha => ⟨fun hm => ?_, fun hm => ?_, fun hm => ?_, fun hm => ?_⟩⟩
  · exact completes_of_meaning_write (op := opSta) (by rw [hm]; rfl) hr ha
  · exact completes_of_meaning_write (op := opStx) (by rw [hm]; rfl) hr ha
  · exact completes_of_meaning_write (op := opSty) (by rw [hm]; rfl) hr ha
  · exact completes_of_meaning_write (op := opSax) (by rw [hm]; rfl) hr ha

/-! ## Transfers -/

theorem opTax_eq (r : Regs) : opTax r = { r with x := r.a, n := r.a.msb, z := r.a == 0 } := rfl

theorem opTay_eq (r : Regs) : opTay r = { r with y := r.a, n := r.a.msb, z := r.a == 0 } := rfl

theorem opTxa_eq (r : Regs) : opTxa r = { r with a := r.x, n := r.x.msb, z := r.x == 0 } := rfl

theorem opTya_eq (r : Regs) : opTya r = { r with a := r.y, n := r.y.msb, z := r.y == 0 } := rfl

theorem opTsx_eq (r : Regs) : opTsx r = { r with x := r.s, n := r.s.msb, z := r.s == 0 } := rfl

theorem opTxs_eq (r : Regs) : opTxs r = { r with s := r.x } := rfl

/-- An instruction that means an ImpOp completes on any bus with the registers that operation gives, PC one further, and
no memory changed (40_sequencer R69, R74). -/
theorem completes_of_meaning_implied {i : Instr} {s : State} {op : ImpOp} {r : Regs}
    (hm : meaning i.mnemonic i.operand.mode = .implied op) (hop : op s.regs = r) (h0 : s.t = 0) :
    Completes i s r (s.pc + 1) s.peek := by
  rw [← hop]
  exact completes_imp (by rw [exec_eq_run_meaning, hm]; rfl) h0

/-- Settles O8: each transfer means its own ImpOp, which is `setNZ` of the copied byte; TXS alone only copies. -/
theorem transfersCopyRegisters : Obligations.TransfersCopyRegisters := by
  refine ⟨encoded_of_table (by decide), encoded_of_table (by decide), encoded_of_table (by decide),
    encoded_of_table (by decide), encoded_of_table (by decide), encoded_of_table (by decide),
    fun s h0 => ⟨?_, ?_, ?_, ?_, ?_, ?_⟩⟩
  · exact completes_of_meaning_implied rfl (opTax_eq ..) h0
  · exact completes_of_meaning_implied rfl (opTay_eq ..) h0
  · exact completes_of_meaning_implied rfl (opTxa_eq ..) h0
  · exact completes_of_meaning_implied rfl (opTya_eq ..) h0
  · exact completes_of_meaning_implied rfl (opTsx_eq ..) h0
  · exact completes_of_meaning_implied rfl (opTxs_eq ..) h0

end Sys2Proof.Machine

/-! PROOFS of the family 43_shift_incdec: the shifts and rotates on A and on memory (O9), INC and DEC (O10), the
register increments and decrements (O11). -/

namespace Sys2Proof.Machine

open Sys2Proof

/-! ## Read-modify-write by meaning -/

/-- An instruction that means an RmwOp completes in each of its modes with the registers and with the stored byte that
operation gives from the byte at the effective address, provided it leaves I alone, which the poll after it reads
(40_sequencer R69, R108). -/
theorem completes_of_meaning_modify {i : Instr} {s : State} {a : Word} {op : RmwOp} {r : Regs} {v : Byte}
    (hm : meaning i.mnemonic i.operand.mode = .modify op) (hop : op s.regs (s.modifyByte i.operand a) = (r, v))
    (hI : ∀ r v, (op r v).1.i = r.i) (hr : Ready i s) (ha : i.operand.effAddr s = some a) :
    Completes i s r (s.pcAfter i) (stored s s.peek a v) := by
  have h := completes_rmw (memMode_of_effAddr ha) (by rw [exec_eq_run_meaning, hm]; rfl) hI hr ha
  rwa [hop] at h

/-! ## Shifts and rotates -/

/-- `ShiftASL(v)` (43_shift_incdec R131) with N as the sign bit of the result. -/
theorem shiftAsl_eq (r : Regs) (v : Byte) :
    shiftAsl r v = ({ r with c := v.getLsbD 7, n := (v <<< 1).msb, z := v <<< 1 == 0 }, v <<< 1) := rfl

/-- On the accumulator an RmwOp's result goes to A, beside the flags it writes. -/
theorem onA_eq {op : RmwOp} {r r' : Regs} {v : Byte} (h : op r r.a = (r', v)) : onA op r = { r' with a := v } := by
  rw [onA, h]

/-- Settles O9: each of the four means one RmwOp, applied to A in accumulator mode and to memory in the others. -/
theorem shiftsAndRotatesOnAAndMemory : Obligations.ShiftsAndRotatesOnAAndMemory := by
  refine ⟨encoded_of_table (by decide), encoded_of_table (by decide), encoded_of_table (by decide),
    encoded_of_table (by decide), fun s h0 => ⟨?_, ?_, ?_, ?_⟩, fun i s a hr ha => ?_⟩
  · exact completes_of_meaning_implied rfl (onA_eq (shiftAsl_eq ..)) h0
  · exact completes_of_meaning_implied rfl (onA_eq (shiftLsr_eq ..)) h0
  · exact completes_of_meaning_implied rfl (onA_eq (rotRol_eq ..)) h0
  · exact completes_of_meaning_implied rfl (onA_eq (rotRor_eq ..)) h0
  · have hshift := shiftMeaning_of_effAddr ha
    refine ⟨fun hm => ?_, fun hm => ?_, fun hm => ?_, fun hm => ?_⟩
    · exact completes_of_meaning_modify (by rw [hm]; exact hshift _) (shiftAsl_eq ..) (fun _ _ => rfl) hr ha
    · exact completes_of_meaning_modify (by rw [hm]; exact hshift _) (shiftLsr_eq ..) (fun _ _ => rfl) hr ha
    · exact completes_of_meaning_modify (by rw [hm]; exact hshift _) (rotRol_eq ..) (fun _ _ => rfl) hr ha
    · exact completes_of_meaning_modify (by rw [hm]; exact hshift _) (rotRor_eq ..) (fun _ _ => rfl) hr ha

/-! ## Increments and decrements -/

theorem opInc_eq (r : Regs) (m : Byte) : opInc r m = ({ r with n := (m + 1).msb, z := m + 1 == 0 }, m + 1) := rfl

theorem opDec_eq (r : Regs) (m : Byte) : opDec r m = ({ r with n := (m - 1).msb, z := m - 1 == 0 }, m - 1) := rfl

/-- Settles O10: INC and DEC mean their own RmwOp in every mode, which is `setNZ` of the byte it stores. -/
theorem incDecModifyOneByte : Obligations.IncDecModifyOneByte := by
  refine ⟨encoded_of_table (by decide), encoded_of_table (by decide),
    fun i s a hr ha => ⟨fun hm => ?_, fun hm => ?_⟩⟩
  · exact completes_of_meaning_modify (by rw [hm]; rfl) (opInc_eq ..) (fun _ _ => rfl) hr ha
  · exact completes_of_meaning_modify (by rw [hm]; rfl) (opDec_eq ..) (fun _ _ => rfl) hr ha

theorem opInx_eq (r : Regs) : opInx r = { r with x := r.x + 1, n := (r.x + 1).msb, z := r.x + 1 == 0 } := rfl

theorem opIny_eq (r : Regs) : opIny r = { r with y := r.y + 1, n := (r.y + 1).msb, z := r.y + 1 == 0 } := rfl

theorem opDex_eq (r : Regs) : opDex r = { r with x := r.x - 1, n := (r.x - 1).msb, z := r.x - 1 == 0 } := rfl

theorem opDey_eq (r : Regs) : opDey r = { r with y := r.y - 1, n := (r.y - 1).msb, z := r.y - 1 == 0 } := rfl

/-- Settles O11: each of the four means its own ImpOp, which is `setNZ` of the value it puts in the register. -/
theorem registerIncrementsAndDecrements : Obligations.RegisterIncrementsAndDecrements := by
  refine ⟨encoded_of_table (by decide), encoded_of_table (by decide), encoded_of_table (by decide),
    encoded_of_table (by decide), fun s h0 => ⟨?_, ?_, ?_, ?_⟩⟩
  · exact completes_of_meaning_implied rfl (opInx_eq ..) h0
  · exact completes_of_meaning_implied rfl (opIny_eq ..) h0
  · exact completes_of_meaning_implied rfl (opDex_eq ..) h0
  · exact completes_of_meaning_implied rfl (opDey_eq ..) h0

end Sys2Proof.Machine

/-! PROOFS of the family 44_flags_nop: the flag instructions (O12) and NOP in every mode (O13). -/

namespace Sys2Proof.Machine

open Sys2Proof

/-! ## Flag instructions -/

/-- Settles O12: each of the seven means its own ImpOp, which writes its flag; the poll of T_IMP comes before it. -/
theorem flagInstructionsWriteOneFlag : Obligations.FlagInstructionsWriteOneFlag := by
  refine ⟨encoded_of_table (by decide), encoded_of_table (by decide), encoded_of_table (by decide),
    encoded_of_table (by decide), encoded_of_table (by decide), encoded_of_table (by decide),
    encoded_of_table (by decide), fun s h0 => ⟨?_, ?_, ?_, ?_, ?_, ?_, ?_⟩⟩
  · exact completes_of_meaning_implied (op := opClc) rfl rfl h0
  · exact completes_of_meaning_implied (op := opSec) rfl rfl h0
  · exact completes_of_meaning_implied (op := opCli) rfl rfl h0
  · exact completes_of_meaning_implied (op := opSei) rfl rfl h0
  · exact completes_of_meaning_implied (op := opClv) rfl rfl h0
  · exact completes_of_meaning_implied (op := opCld) rfl rfl h0
  · exact completes_of_meaning_implied (op := opSed) rfl rfl h0

/-! ## Reading on any bus -/

/-- Run from `s` on any bus, the template leaves what `op` gives for some byte read, PC past the operand, and
every plain byte of memory as it was. -/
def ReadsPast (T : Template) (op : ReadOp) (o : Operand) (s : State) : Prop :=
  ∃ t v, run T s = .next t ∧ Settled s t (op s.regs v) (pcPast o s) s.pollAnswer ∧ t.nmiPending = s.nmiPending ∧
    MemIs s t s.peek

/-- A run past the operand whose accesses are all reads leaves every plain byte of memory as it was. -/
theorem ReadsPast.of_reads {T : Template} {op : ReadOp} {o : Operand} {s t : State} {v : Byte} {l : List Access}
    (hl : l.all Access.isRead = true)
    (h : run T s = .next t ∧ Settled s t (op s.regs v) (pcPast o s) s.pollAnswer ∧ t.nmiPending = s.nmiPending ∧
      t.bus = s.bus.after 1 l) : ReadsPast T op o s := by
  obtain ⟨ht, hs, hn, hb⟩ := h
  exact ⟨t, v, ht, hs, hn, memIs_reads hl hb⟩

/-- The read template of an operand in memory goes past the operand and only reads (40_sequencer R76 to R91). -/
theorem readTemplate_readsPast {o : Operand} {m : MemMode} (ho : memMode o = some m) (op : ReadOp) {s : State}
    (h0 : s.t = 0) : ReadsPast (readTemplate m op) op o s := by
  cases o <;> simp only [memMode, Option.some.injEq, reduceCtorEq] at ho <;> subst ho
  case zp => have ⟨_, h⟩ := run_tZpR op s h0 rfl rfl; exact .of_reads rfl h
  case zpx => have ⟨_, h⟩ := run_tZpiR regX op s h0 rfl rfl; exact .of_reads rfl h
  case zpy => have ⟨_, h⟩ := run_tZpiR regY op s h0 rfl rfl; exact .of_reads rfl h
  case abs => have ⟨_, h⟩ := run_tAbsR op s h0 rfl rfl rfl; exact .of_reads rfl h
  case abx =>
    cases hx : indexCarry ((s.bus.after 1 [.read s.pc]).answer (s.pc + 1)) (regX s.regs)
    · have ⟨_, h⟩ := run_tAbiR_same regX op s h0 hx rfl rfl rfl; exact .of_reads rfl h
    · have ⟨_, h⟩ := run_tAbiR_cross regX op s h0 hx rfl rfl rfl; exact .of_reads rfl h
  case aby =>
    cases hx : indexCarry ((s.bus.after 1 [.read s.pc]).answer (s.pc + 1)) (regY s.regs)
    · have ⟨_, h⟩ := run_tAbiR_same regY op s h0 hx rfl rfl rfl; exact .of_reads rfl h
    · have ⟨_, h⟩ := run_tAbiR_cross regY op s h0 hx rfl rfl rfl; exact .of_reads rfl h
  case izx => have ⟨_, h⟩ := run_tIzxR op s h0 rfl rfl rfl rfl; exact .of_reads rfl h
  case izy =>
    cases hx : indexCarry ((s.bus.after 1 [.read s.pc, .read (s.pc + 1)]).answer
      (zeroPage ((s.bus.after 1 [.read s.pc]).answer (s.pc + 1)))) s.regs.y
    · have ⟨_, h⟩ := run_tIzyR_same op s h0 hx rfl rfl rfl rfl; exact .of_reads rfl h
    · have ⟨_, h⟩ := run_tIzyR_cross op s h0 hx rfl rfl rfl rfl; exact .of_reads rfl h

/-- An instruction that means a ReadOp completes on any bus, devices included, in each of its modes, with what that
operation gives for some byte read, and changes no plain byte of memory (40_sequencer R69, R108). -/
theorem completes_of_meaning_read_anyBus {i : Instr} {s : State} {op : ReadOp}
    (hm : meaning i.mnemonic i.operand.mode = .read op) (h0 : s.t = 0) :
    ∃ v, Completes i s (op s.regs v) (s.pcAfter i) s.peek := by
  have hp : (entryOf i).pattern = .read := by rw [entryOf_pattern, hm]; rfl
  have hr : ReadsPast ((Meaning.read op).template i.operand.mode) op i.operand s := by
    cases kind i with
    | imm _ _ _ ho =>
      obtain ⟨b, ho⟩ := ho
      rw [ho]
      have ⟨_, h⟩ := run_tImm (fun _ => op) s h0 rfl
      exact .of_reads rfl h
    | read m _ _ _ ho =>
      rw [Meaning.read_template_of_memMode ho]
      exact readTemplate_readsPast ho op h0
    | _ => cases hp.symm.trans ‹(entryOf i).pattern = _›
  obtain ⟨t, v, ht, hdone⟩ := hr
  exact ⟨v, t, by rw [exec_eq_run_meaning, hm, ht], hdone⟩

/-! ## NOP -/

/-- A NOP in a mode with an operand reads it, and does nothing with the byte (47_unofficial R189). -/
theorem nopMeaning_of_ne_imp {mode : Mode} (h : mode ≠ .imp) : nopMeaning mode = .read opNopRead := by
  cases mode
  case imp => exact absurd rfl h
  all_goals rfl

/-- An instruction of the implied pattern is its opcode byte alone (40_sequencer R74). -/
theorem pcAfter_of_implied {i : Instr} (hp : (entryOf i).pattern = .implied) (s : State) : s.pcAfter i = s.pc + 1 := by
  have hlen : i.length = 1 := by cases i <;> cases hp <;> rfl
  rw [State.pcAfter, hlen]
  rfl

/-- Settles O13: without an operand NOP means the ImpOp that is the identity; with one, a ReadOp that is the identity
whatever byte the bus answers. -/
theorem nopsChangeOnlyPc : Obligations.NopsChangeOnlyPc := by
  refine ⟨encoded_of_table (by decide), fun i s hm h0 => ?_⟩
  have hmean : meaning i.mnemonic i.operand.mode = nopMeaning i.operand.mode := by rw [hm]; rfl
  by_cases hmode : i.operand.mode = .imp
  · have himp : meaning i.mnemonic i.operand.mode = .implied opNop := by rw [hmean, hmode]; rfl
    have hp : (entryOf i).pattern = .implied := by rw [entryOf_pattern, himp]; rfl
    rw [pcAfter_of_implied hp]
    exact completes_of_meaning_implied himp rfl h0
  · obtain ⟨_, h⟩ := completes_of_meaning_read_anyBus (hmean.trans (nopMeaning_of_ne_imp hmode)) h0
    exact h

end Sys2Proof.Machine

/-! PROOFS of the family 45_control: the branches (O14), the jumps (O15), JSR (O16), RTS (O17), RTI (O18) and BRK
(O19). -/

namespace Sys2Proof.Machine

open Sys2Proof

/-! ## Branches -/

/-- A ready instruction that means a branch on `cond` completes at the next instruction, or at its target when `cond`
holds; it makes the accesses of T_REL and changes nothing else (40_sequencer R94, 45_control R149). -/
theorem exec_of_meaning_branch {i : Instr} {s : State} {off : Byte} {cond : BranchCond}
    (hm : meaning i.mnemonic i.operand.mode = .branch cond) (hr : Ready i s) (ho : i.operand = .rel off) :
    ∃ t, exec i s = .next t ∧
      Settled s t s.regs (if cond s.regs then s.pc + 2 + sext16 off else s.pc + 2) s.pollAnswer ∧
      t.nmiPending = s.nmiPending ∧ MemIs s t s.peek ∧
      t.bus = s.bus.after 1
        ([.read s.pc, .read (s.pc + 1)] ++
          (if cond s.regs then
            [.read (s.pc + 2)] ++
              (if hiByte (s.pc + 2 + sext16 off) = hiByte (s.pc + 2) then []
              else [.read (mkWord (hiByte (s.pc + 2)) (loByte (s.pc + 2 + sext16 off)))])
          else [])) := by
  obtain ⟨h0, -⟩ := id hr
  have hb := hr.operand
  rw [ho] at hb
  obtain ⟨hplain, hoff⟩ := hb.one
  obtain ⟨t, ht, hs, hn, hbus⟩ := run_tRel cond s h0 ((peek_after_reads hplain _ _ rfl).trans hoff)
  refine ⟨t, by rw [exec_eq_run_meaning, hm]; exact ht, hs, hn, memIs_reads ?_ hbus, hbus⟩
  split
  · split <;> rfl
  · rfl

/-- Settles O14: each of the eight means the branch on its own condition. -/
theorem branchesTakeTheirConditionAndTarget : Obligations.BranchesTakeTheirConditionAndTarget := by
  refine ⟨encoded_of_table (by decide), encoded_of_table (by decide), encoded_of_table (by decide),
    encoded_of_table (by decide), encoded_of_table (by decide), encoded_of_table (by decide),
    encoded_of_table (by decide), encoded_of_table (by decide), fun i s off hr ho row hrow hm => ?_⟩
  simp only [List.mem_cons, List.not_mem_nil, or_false] at hrow
  obtain rfl | rfl | rfl | rfl | rfl | rfl | rfl | rfl := hrow
  · exact exec_of_meaning_branch (cond := condBpl) (by rw [hm]; rfl) hr ho
  · exact exec_of_meaning_branch (cond := condBmi) (by rw [hm]; rfl) hr ho
  · exact exec_of_meaning_branch (cond := condBvc) (by rw [hm]; rfl) hr ho
  · exact exec_of_meaning_branch (cond := condBvs) (by rw [hm]; rfl) hr ho
  · exact exec_of_meaning_branch (cond := condBcc) (by rw [hm]; rfl) hr ho
  · exact exec_of_meaning_branch (cond := condBcs) (by rw [hm]; rfl) hr ho
  · exact exec_of_meaning_branch (cond := condBne) (by rw [hm]; rfl) hr ho
  · exact exec_of_meaning_branch (cond := condBeq) (by rw [hm]; rfl) hr ho

/-! ## Jumps -/

/-- A ready instruction's word operand stands in the two bytes after its opcode, low byte first (30_encoding R54). -/
theorem Ready.wordOperand {i : Instr} {s : State} {w : Word} (hr : Ready i s)
    (ho : i.operand.bytes = [loByte w, hiByte w]) :
    s.PlainAt (s.pc + 1) ∧ s.peek (s.pc + 1) = loByte w ∧ s.PlainAt (s.pc + 2) ∧ s.peek (s.pc + 2) = hiByte w := by
  have hb := hr.operand
  rw [ho] at hb
  rw [← word_succ]
  exact hb.two

/-- Settles O15: both templates read the word after the opcode; the one of JMP ind takes it for a pointer, whose page
its second read keeps. -/
theorem jumpsLoadPc : Obligations.JumpsLoadPc := by
  refine ⟨encoded_of_table (by decide), fun w s hr => ?_, fun p s hr => ?_⟩
  · obtain ⟨hplo, hlo, hphi, hhi⟩ := hr.wordOperand rfl
    obtain ⟨h0, -⟩ := hr
    obtain ⟨t, ht, hs, hn, hbus⟩ := run_tJmpAbs s h0 ((peek_after_reads hplo _ _ rfl).trans hlo)
      ((peek_after_reads hphi _ _ rfl).trans hhi)
    rw [mkWord_hi_lo] at hs
    exact ⟨t, ht, hs, hn, memIs_reads rfl hbus, hbus⟩
  · obtain ⟨hplo, hlo, hphi, hhi⟩ := hr.wordOperand rfl
    obtain ⟨h0, -, -, hfirst, hsecond⟩ := hr
    have hp := mkWord_hi_lo p
    obtain ⟨t, ht, hs, hn, hbus⟩ := run_tJmpInd s h0 ((peek_after_reads hplo _ _ rfl).trans hlo)
      ((peek_after_reads hphi _ _ rfl).trans hhi) (peek_after_reads (by rwa [hp]) _ _ rfl)
      (peek_after_reads hsecond _ _ rfl)
    rw [hp] at hs hbus
    exact ⟨t, ht, hs, hn, memIs_reads rfl hbus, hbus⟩

/-! ## Plain memory after pushes -/

/-- Where no device stands, a peek after any accesses sees what they stored. -/
theorem peek_after {s : State} {a : Word} (hw : s.bus.mem.wf = true) (h : s.PlainAt a) (l : List Access) (c : Nat) :
    (s.bus.after c l).answer a = storedBy s s.peek l a :=
  answer_after l s.bus c s.peek hw (fun _ => rfl) (fun _ _ => rfl) a h

/-- A store changes no other address. -/
theorem stored_of_ne {s : State} {mem : Word → Byte} {x a : Word} {v : Byte} (h : x ≠ a) :
    stored s mem a v x = mem x :=
  if_neg fun hx => h hx.1

/-! ## Subroutines -/

/-- Settles O16: the target's high byte is the one memory holds after the two pushes, which leave every byte outside
their own addresses. -/
theorem jsrPushesReturnAddress : Obligations.JsrPushesReturnAddress := by
  refine ⟨encoded_of_table (by decide), fun w s h0 hw hplo hlo hphi hhi => ?_⟩
  intro top below mem
  refine ⟨fun htop hbelow => ?_, ?_⟩
  · have hmem : mem (s.pc + 2) = hiByte w := by
      rw [← hhi]
      exact (stored_of_ne hbelow).trans (stored_of_ne htop)
    rw [hmem, mkWord_hi_lo]
  · obtain ⟨t, ht, hs, hn, hbus⟩ := run_tJsr s h0 ((peek_after_reads hplo _ _ rfl).trans hlo)
      (peek_after hw hphi _ _)
    exact ⟨t, ht, hs, hn, memIs_after hw hbus, hbus⟩

/-- Settles O17: T_RTS only reads, so the pulled bytes are those memory held. -/
theorem rtsReturnsPastThePushedAddress : Obligations.RtsReturnsPastThePushedAddress := by
  refine ⟨encoded_of_table (by decide), fun s h0 => ?_⟩
  intro first second hfirst hsecond
  obtain ⟨t, ht, hs, hn, hbus⟩ := run_tRts s h0 (peek_after_reads hfirst _ _ rfl) (peek_after_reads hsecond _ _ rfl)
  exact ⟨t, ht, hs, hn, memIs_reads rfl hbus, hbus⟩

/-! ## RTI and BRK -/

/-- Settles O18: T_RTI only reads, and its poll comes after the status is unpacked. -/
theorem rtiRestoresStatusThenPc : Obligations.RtiRestoresStatusThenPc := by
  refine ⟨encoded_of_table (by decide), fun s h0 => ?_⟩
  intro first second third hfirst hsecond hthird
  obtain ⟨t, ht, hs, hn, hbus⟩ := run_tRti s h0 (peek_after_reads hfirst _ _ rfl) (peek_after_reads hsecond _ _ rfl)
    (peek_after_reads hthird _ _ rfl)
  exact ⟨t, ht, hs, hn, memIs_reads rfl hbus, hbus⟩

/-- An address past page 1 is no stack byte (20_memory R46). -/
theorem ne_stackAddr {a : Word} (h : 512 ≤ a.toNat) (x : Byte) : a ≠ stackAddr x := by
  rintro rfl
  have := stackAddr_toNat x
  omega

/-- Settles O19: the vector stands outside the stack page, so the three pushes leave it, and T_BRK loads the word
memory held there. -/
theorem brkEntersThroughTheVector : Obligations.BrkEntersThroughTheVector := by
  refine ⟨encoded_of_table (by decide), fun pad s h0 hw => ?_⟩
  intro vec top below third status mem hlo hhi
  have hmem {a : Word} (ha : 512 ≤ a.toNat) : mem a = s.peek a := by
    have hne := ne_stackAddr ha
    exact (stored_of_ne (hne _)).trans ((stored_of_ne (hne _)).trans (stored_of_ne (hne _)))
  have hvec : 512 ≤ vec.toNat ∧ 512 ≤ (vec + 1).toNat := by
    cases hn : s.nmiPending <;> simp [vec, hn]
  obtain ⟨t, ht, hs, hn, hbus⟩ := run_tBrk s h0 ((peek_after hw hlo _ _).trans (hmem hvec.1))
    ((peek_after hw hhi _ _).trans (hmem hvec.2))
  exact ⟨t, ht, hs, hn, memIs_after hw hbus, hbus⟩

end Sys2Proof.Machine

/-! PROOFS of the family 46_stack: the pushes PHA and PHP (O20) and the pulls PLA and PLP (O21). -/

namespace Sys2Proof.Machine

open Sys2Proof

/-! ## Pushes -/

/-- An instruction that means a push completes with its byte stored at the top of the stack and S one lower, whatever
stands there (40_sequencer R101). -/
theorem completes_of_meaning_push {i : Instr} {s : State} {v : WriteOp}
    (hm : meaning i.mnemonic i.operand.mode = .push v) (h0 : s.t = 0) (hw : s.bus.mem.wf = true) :
    Completes i s { s.regs with s := s.regs.s - 1 } (s.pc + 1) (stored s s.peek (stackAddr s.regs.s) (v s.regs)) := by
  obtain ⟨t, ht, hs, hn, hbus⟩ := run_tPush v s h0
  exact ⟨t, by rw [exec_eq_run_meaning, hm]; exact ht, hs, hn, memIs_after hw hbus⟩

/-- The stack byte `x` stands at 256 + x: the `or` of 20_memory R46 never carries. -/
theorem stackAddr_eq_ofNat (x : Byte) : stackAddr x = BitVec.ofNat 16 (256 + x.toNat) := by
  rw [← stackAddr_toNat, BitVec.ofNat_toNat, BitVec.setWidth_eq]

/-- A byte with bits 5 and 4 set has 3 there as a number. -/
theorem bits_five_four_of_set {b : Byte} (h5 : b.getLsbD 5 = true) (h4 : b.getLsbD 4 = true) :
    b.toNat / 16 % 4 = 3 :=
  (by decide : ∀ b : Byte, b.getLsbD 5 = true → b.getLsbD 4 = true → b.toNat / 16 % 4 = 3) b h5 h4

/-- Settles O20: PHA and PHP mean the pushes of A and of the status packed with B = 1. -/
theorem pushesStoreAtTheTop : Obligations.PushesStoreAtTheTop := by
  refine ⟨encoded_of_table (by decide), encoded_of_table (by decide), fun s h0 hw => ⟨?_, ?_, ?_, ?_⟩⟩
  · exact completes_of_meaning_push (v := opPha) rfl h0 hw
  · exact completes_of_meaning_push (v := opPhp) rfl h0 hw
  · exact stackAddr_eq_ofNat s.regs.s
  · obtain ⟨-, -, h5, h4, -⟩ := pack_bits s.regs true
    exact bits_five_four_of_set h5 h4

/-! ## Pulls -/

/-- With plain memory above the top of the stack, an instruction that means a pull completes with what its ReadOp gives
for the byte there, after S is raised; its poll comes before (40_sequencer R102). -/
theorem completes_of_meaning_pull {i : Instr} {s : State} {op : ReadOp} {r : Regs}
    (hm : meaning i.mnemonic i.operand.mode = .pull op) (h0 : s.t = 0) (hp : s.PlainAt (stackAddr (s.regs.s + 1)))
    (hop : op { s.regs with s := s.regs.s + 1 } (s.peek (stackAddr (s.regs.s + 1))) = r) :
    Completes i s r (s.pc + 1) s.peek := by
  obtain ⟨t, ht, hs, hn, hbus⟩ := run_tPull op s h0 (peek_after_reads hp _ _ rfl)
  rw [hop] at hs
  exact ⟨t, by rw [exec_eq_run_meaning, hm]; exact ht, hs, hn, memIs_reads rfl hbus⟩

theorem opPla_eq (r : Regs) (v : Byte) : opPla r v = { r with a := v, n := v.msb, z := v == 0 } := rfl

/-- Settles O21: PLA and PLP mean the pulls whose ReadOps load A and unpack the status. -/
theorem pullsLoadFromAboveTheTop : Obligations.PullsLoadFromAboveTheTop := by
  refine ⟨encoded_of_table (by decide), encoded_of_table (by decide), fun s h0 hp => ⟨?_, ?_⟩⟩
  · exact completes_of_meaning_pull rfl h0 hp (opPla_eq ..)
  · exact completes_of_meaning_pull (op := opPlp) rfl h0 hp rfl

end Sys2Proof.Machine

/-! PROOFS of the family 47_unofficial: LAX and LAS (O6), the read-modify-writes combined with an operation on A (O22,
O23), the combined immediates (O24, O25) and the unstable stores (O26). -/

namespace Sys2Proof.Machine

open Sys2Proof

/-! ## Loads of several registers -/

theorem opLax_eq (r : Regs) (m : Byte) : opLax r m = { r with a := m, x := m, n := m.msb, z := m == 0 } := rfl

theorem opLas_eq (r : Regs) (m : Byte) :
    opLas r m =
      { r with a := m &&& r.s, x := m &&& r.s, s := m &&& r.s, n := (m &&& r.s).msb, z := m &&& r.s == 0 } := rfl

/-- Settles O6: LAX and LAS mean their own ReadOp in every mode, which is `setNZ` of the value it loads. -/
theorem laxAndLasLoadSeveralRegisters : Obligations.LaxAndLasLoadSeveralRegisters := by
  refine ⟨encoded_of_table (by decide), encoded_of_table (by decide),
    fun i s hr hd => ⟨fun hm => ?_, fun hm => ?_⟩⟩
  · exact completes_of_meaning_read (by rw [hm]; rfl) (opLax_eq ..) hr hd
  · exact completes_of_meaning_read (by rw [hm]; rfl) (opLas_eq ..) hr hd

/-! ## Read-modify-writes combined with an operation on A -/

/-- `Compose(rmw, rd)` (40_sequencer R69): the ReadOp sees the registers and the byte that the RmwOp left. -/
theorem compose_eq {rmw : RmwOp} {rd : ReadOp} {r r' r'' : Regs} {m v : Byte} (hrmw : rmw r m = (r', v))
    (hrd : rd r' v = r'') : compose rmw rd r m = (r'', v) := by
  rw [compose, hrmw, hrd]

/-- Settles O22: each of the three composes a shift or rotate, whose C stays, with a logical operation on A, whose N and
Z replace those of the shift. -/
theorem shiftThenLogicOpcodes : Obligations.ShiftThenLogicOpcodes := by
  refine ⟨encoded_of_table (by decide), encoded_of_table (by decide), encoded_of_table (by decide),
    fun i s a hr ha => ⟨fun hm => ?_, fun hm => ?_, fun hm => ?_⟩⟩
  · exact completes_of_meaning_modify (op := opSlo) (by rw [hm]; rfl) (compose_eq (shiftAsl_eq ..) (opOra_eq ..))
      (fun _ _ => rfl) hr ha
  · exact completes_of_meaning_modify (op := opRla) (by rw [hm]; rfl) (compose_eq (rotRol_eq ..) (opAnd_eq ..))
      (fun _ _ => rfl) hr ha
  · exact completes_of_meaning_modify (op := opSre) (by rw [hm]; rfl) (compose_eq (shiftLsr_eq ..) (opEor_eq ..))
      (fun _ _ => rfl) hr ha

/-- Settles O23: each of the three composes its modification with an addition, a subtraction or a comparison; the carry
that RRA adds is the one its rotate shifted out, and ISC subtracts with the old C, which INC leaves alone. -/
theorem modifyThenArithmeticOpcodes : Obligations.ModifyThenArithmeticOpcodes := by
  refine ⟨encoded_of_table (by decide), encoded_of_table (by decide), encoded_of_table (by decide),
    fun i s a hr ha => ⟨fun hm => ?_, fun hm => ?_, fun hm => ?_⟩⟩
  · exact completes_of_meaning_modify (op := opRra) (by rw [hm]; rfl) (compose_eq (rotRor_eq ..) (addWithCarry_eq ..))
      (fun _ _ => rfl) hr ha
  · exact completes_of_meaning_modify (op := opIsc) (by rw [hm]; rfl) (compose_eq (opInc_eq ..) (subWithBorrow_eq ..))
      (fun _ _ => rfl) hr ha
  · exact completes_of_meaning_modify (op := opDcp) (by rw [hm]; rfl) (compose_eq (opDec_eq ..) (compareFlags_eq ..))
      (fun _ _ => rfl) hr ha

/-! ## Combined immediates -/

theorem opAnc_eq (r : Regs) (m : Byte) :
    opAnc r m = { r with a := r.a &&& m, n := (r.a &&& m).msb, z := r.a &&& m == 0, c := (r.a &&& m).msb } := rfl

theorem opAlr_eq (r : Regs) (m : Byte) :
    opAlr r m =
      { r with
        a := (r.a &&& m) >>> 1, n := false, z := (r.a &&& m) >>> 1 == 0, c := (r.a &&& m).getLsbD 0 } := by
  rw [opAlr, shiftLsr_eq]

/-- The carry enters ARR's result at bit 7 (47_unofficial R178). -/
theorem arrResult_eq (r : Regs) (m : Byte) :
    arrResult r m = (r.a &&& m) >>> 1 ||| (if r.c then 0x80 else 0) := by
  cases h : r.c <;> rw [arrResult, h] <;> rfl

theorem opArr_eq (r : Regs) (m : Byte) :
    opArr r m =
      { r with
        a := arrResult r m, n := (arrResult r m).msb, z := arrResult r m == 0, c := (arrResult r m).getLsbD 6,
        v := (arrResult r m).getLsbD 6 ^^ (arrResult r m).getLsbD 5 } := rfl

theorem opSbx_eq (r : Regs) (m : Byte) :
    opSbx r m =
      { r with
        x := (r.a &&& r.x) - m, n := ((r.a &&& r.x) - m).msb, z := (r.a &&& r.x) - m == 0,
        c := decide (m.toNat ≤ (r.a &&& r.x).toNat) } := rfl

/-- Settles O24: each of the four means its own ReadOp, which `setNZ` and its special flags spell out. -/
theorem immediateCombinedOpcodes : Obligations.ImmediateCombinedOpcodes := by
  refine ⟨encoded_of_table (by decide), encoded_of_table (by decide), encoded_of_table (by decide),
    encoded_of_table (by decide), fun i s hr hd => ?_⟩
  intro m both half arr axs
  have harr : arr = arrResult s.regs m := (arrResult_eq s.regs m).symm
  refine ⟨fun hm => ?_, fun hm => ?_, fun hm => ?_, fun hm => ?_⟩
  · exact completes_of_meaning_read (by rw [hm]; rfl) (opAnc_eq ..) hr hd
  · exact completes_of_meaning_read (by rw [hm]; rfl) (opAlr_eq ..) hr hd
  · rw [harr]
    exact completes_of_meaning_read (by rw [hm]; rfl) (opArr_eq ..) hr hd
  · exact completes_of_meaning_read (by rw [hm]; rfl) (opSbx_eq ..) hr hd

/-- The ReadOps that take a parameter are those of ANE and LXA, which have the immediate mode only. -/
theorem imm_of_meaning_readWith {i : Instr} {op : Config.Params → ReadOp}
    (hm : meaning i.mnemonic i.operand.mode = .readWith op) : ∃ b, i.operand = .imm b := by
  cases i <;> first | exact ⟨_, rfl⟩ | cases hm

/-- An instruction that means a ReadOp with a parameter completes with what that operation gives, whatever the
parameters, for its immediate, and changes no memory (40_sequencer R75). -/
theorem completes_of_meaning_readWith {i : Instr} {s : State} {op : Config.Params → ReadOp} {r : Regs}
    (hm : meaning i.mnemonic i.operand.mode = .readWith op) (hop : op s.params s.regs (i.operand.value s) = r)
    (hr : Ready i s) : Completes i s r (s.pcAfter i) s.peek := by
  obtain ⟨b, ho⟩ := imm_of_meaning_readWith hm
  rw [← hop]
  exact completes_imm ho (by rw [exec_eq_run_meaning, hm]; rfl) hr

theorem opAne_eq (p : Config.Params) (r : Regs) (m : Byte) :
    opAne p r m =
      { r with
        a := (r.a ||| p.magic) &&& r.x &&& m, n := ((r.a ||| p.magic) &&& r.x &&& m).msb,
        z := (r.a ||| p.magic) &&& r.x &&& m == 0 } := rfl

theorem opLxa_eq (p : Config.Params) (r : Regs) (m : Byte) :
    opLxa p r m =
      { r with
        a := (r.a ||| p.magic) &&& m, x := (r.a ||| p.magic) &&& m, n := ((r.a ||| p.magic) &&& m).msb,
        z := (r.a ||| p.magic) &&& m == 0 } := rfl

/-- Settles O25: ANE and LXA mean ReadOps of the state's own parameters, so nothing is assumed of P_MAGIC. -/
theorem magicConstantOpcodes : Obligations.MagicConstantOpcodes := by
  refine ⟨encoded_of_table (by decide), encoded_of_table (by decide),
    fun i s hr _ => ⟨fun hm => ?_, fun hm => ?_⟩⟩
  · exact completes_of_meaning_readWith (by rw [hm]; rfl) (opAne_eq ..) hr
  · exact completes_of_meaning_readWith (by rw [hm]; rfl) (opLxa_eq ..) hr

/-! ## Unstable stores -/

/-- The address an unstable store of `v` writes: the indexed one, its high byte replaced by `v` on a page cross
(47_unofficial R183). -/
def unstableAddr (base : Word) (ix v : Byte) : Word :=
  mkWord (if indexCarry (loByte base) ix then v else hiByte base) (indexLow (loByte base) ix)

/-- Without a page cross the address is the 16-bit sum of the base and the index. -/
theorem unstableAddr_eq (base : Word) (ix v : Byte) :
    unstableAddr base ix v =
      if 255 < (loByte base).toNat + ix.toNat then mkWord v (loByte base + ix) else base + ix.setWidth 16 := by
  rw [unstableAddr]
  cases hx : indexCarry (loByte base) ix
  · rw [if_neg Bool.false_ne_true, indexed_same hx, if_neg (of_decide_eq_false hx)]
  · rw [if_pos rfl, if_pos (of_decide_eq_true hx), indexLow]

/-- The operand is indexed from this base by this index register's value. -/
def IndexedFrom (o : Operand) (s : State) (base : Word) (ix : Byte) : Prop :=
  (o = .aby base ∧ ix = s.regs.y) ∨ (o = .abx base ∧ ix = s.regs.x) ∨
    ∃ p, o = .izy p ∧ base = s.zpWord p ∧ ix = s.regs.y

/-- What the template of an unstable store does where the instruction and its pointer are plain memory
(47_unofficial R183, 40_sequencer R86, R92). -/
theorem unstableTemplate_plain {o : Operand} {base : Word} {ix : Byte} (op : WriteOp) (before : ImpOp) {s : State}
    (h0 : s.t = 0) (ho : IndexedFrom o s base ix) (hb : BytesAt s (s.pc + 1) o.bytes) (hp : PointerPlain o s) :
    ∃ t, run ((Meaning.unstable op before).template o.mode) s = .next t ∧
      Settled s t (before s.regs) (pcPast o s) s.pollAnswer ∧ t.nmiPending = s.nmiPending ∧
      t.bus = s.bus.after 1 (leadAccesses o s true ++
        [.write (unstableAddr base ix (op s.regs &&& (hiByte base + 1))) (op s.regs &&& (hiByte base + 1))]) := by
  obtain ⟨rfl, rfl⟩ | ⟨rfl, rfl⟩ | ⟨p, rfl, rfl, rfl⟩ := ho
  · obtain ⟨h1, hlo, h2, hhi⟩ := hb.two
    rw [word_succ] at h2 hhi
    exact run_tAbiW_unstable regY op before s h0 ((peek_after_reads h1 _ _ rfl).trans hlo)
      ((peek_after_reads h2 _ _ rfl).trans hhi)
  · obtain ⟨h1, hlo, h2, hhi⟩ := hb.two
    rw [word_succ] at h2 hhi
    exact run_tAbiW_unstable regX op before s h0 ((peek_after_reads h1 _ _ rfl).trans hlo)
      ((peek_after_reads h2 _ _ rfl).trans hhi)
  · obtain ⟨h1, hpc⟩ := hb.one
    exact run_tIzyW_unstable op before s h0 ((peek_after_reads h1 _ _ rfl).trans hpc)
      ((peek_after_reads hp.1 _ _ rfl).trans (loByte_zpWord s p).symm)
      ((peek_after_reads hp.2 _ _ rfl).trans (hiByte_zpWord s p).symm)

/-- An instruction that means an unstable store completes with the registers `before` gives, the combined byte stored at
`unstableAddr`, and the accesses of its mode, the write last. -/
theorem exec_of_meaning_unstable {i : Instr} {s : State} {base : Word} {ix : Byte} {op : WriteOp} {before : ImpOp}
    (hm : meaning i.mnemonic i.operand.mode = .unstable op before) (hr : Ready i s)
    (ho : IndexedFrom i.operand s base ix) :
    let v := op s.regs &&& (hiByte base + 1)
    let a := if 255 < (loByte base).toNat + ix.toNat then mkWord v (loByte base + ix) else base + ix.setWidth 16
    ∃ t, exec i s = .next t ∧ Settled s t (before s.regs) (s.pcAfter i) s.pollAnswer ∧ t.nmiPending = s.nmiPending ∧
      MemIs s t (stored s s.peek a v) ∧ t.bus = s.bus.after 1 (leadAccesses i.operand s true ++ [.write a v]) := by
  intro v a
  obtain ⟨h0, hw, -, hptr⟩ := id hr
  obtain ⟨t, ht, hs, hn, hb⟩ := unstableTemplate_plain op before h0 ho hr.operand hptr
  rw [unstableAddr_eq] at hb
  have hmem := memIs_after hw hb
  rw [storedBy_append, storedBy_reads _ _ _ (leadAccesses_isRead ..)] at hmem
  exact ⟨t, by rw [exec_eq_run_meaning, hm, ht], hs, hn, hmem, hb⟩

/-- Settles O26: each of the four means an unstable store of its own register value; TAS alone writes a register, S,
before it. -/
theorem unstableStoresCombineTheHighByte : Obligations.UnstableStoresCombineTheHighByte := by
  refine ⟨encoded_of_table (by decide), encoded_of_table (by decide), encoded_of_table (by decide),
    encoded_of_table (by decide), fun i s base ix hr ho row hrow hm => ?_⟩
  simp only [List.mem_cons, List.not_mem_nil, or_false] at hrow
  obtain rfl | rfl | rfl | rfl := hrow
  · exact exec_of_meaning_unstable (op := opSha) (before := id) (by rw [hm]; rfl) hr ho
  · exact exec_of_meaning_unstable (op := opShx) (before := id) (by rw [hm]; rfl) hr ho
  · exact exec_of_meaning_unstable (op := opShy) (before := id) (by rw [hm]; rfl) hr ho
  · exact exec_of_meaning_unstable (op := opTas) (before := tasSetS) (by rw [hm]; rfl) hr ho

end Sys2Proof.Machine

/-! PROOFS of the family 60_exceptions: the NMI edge (O43) and the IRQ sources (O44), masking (O45), the interrupt entry
(O30), its vector (O31) and what runs after it (O32), and the bound on an NMI's wait (O59). -/

namespace Sys2Proof.Machine

open Sys2Proof

/-! ## The lines -/

/-- Settles O43: the latch is raised by an edge and by nothing else; the line is asserted when the list of sources is
not empty. -/
theorem nmiEdgeLatchesOnce : Obligations.NmiEdgeLatchesOnce := by
  intro s v
  refine ⟨rfl, ?_, rfl, ?_, fun hline => ?_, rfl, ?_⟩
  · cases hl : s.nmiLine <;> cases v <;> simp [State.setNmiLine, hl]
  · simp [State.setNmiLine]
  · simp [State.setNmiLine, hline]
  · rw [State.getIrqLine, decide_eq_true_eq, List.length_pos_iff_exists_mem]

/-- Settles O44: field by field, from the laws of the strictly rising list. -/
theorem irqRequestAndAcknowledgeAreASet : Obligations.IrqRequestAndAcknowledgeAreASet := by
  intro s src x hs
  have setSources {u : State} {l : List Nat} (h : l = u.irqAsserted) : { u with irqAsserted := l } = u := by rw [h]
  refine ⟨mem_addSource, mem_removeSource, setSources ?_, setSources ?_, fun h => setSources ?_, fun h => setSources ?_,
    rising_addSource hs src, rising_removeSource hs src, rfl, rfl⟩
  · exact addSource_of_mem (rising_addSource hs src) (mem_addSource.mpr (.inl rfl))
  · exact removeSource_of_not_mem fun h => (mem_removeSource.mp h).1 rfl
  · exact removeSource_of_not_mem h
  · exact addSource_of_mem hs h

/-! ## Masking -/

/-- The poll reads I and no other register (60_exceptions R194). -/
theorem pollAnswer_congr {s : State} {r : Regs} (h : r.i = s.regs.i) :
    State.pollAnswer { s with regs := r } = s.pollAnswer := by
  rw [State.pollAnswer, State.pollAnswer, State.irqPending, State.irqPending, h]

/-- A pending NMI is never masked. -/
theorem pollAnswer_of_nmi {s : State} (h : s.nmiPending = true) : s.pollAnswer = true := by
  rw [State.pollAnswer, h, Bool.true_or]

/-- With no NMI pending and I set the poll finds nothing. -/
theorem pollAnswer_of_masked {s : State} (hn : s.nmiPending = false) (hi : s.regs.i = true) : s.pollAnswer = false := by
  simp [State.pollAnswer, State.irqPending, hn, hi]

/-- With I clear the poll finds an asserted source. -/
theorem pollAnswer_of_irq {s : State} (hi : s.regs.i = false) (hq : s.irqAsserted ≠ []) : s.pollAnswer = true := by
  simp [State.pollAnswer, State.irqPending, hi, List.length_pos_iff.mpr hq]

/-- Begun in `s`, the instruction leaves the latch with the answer of a poll made with the flags before it. -/
def PollsBefore (i : Instr) (s : State) : Prop := ∃ t, exec i s = .next t ∧ t.intRequested = s.pollAnswer

theorem PollsBefore.of_run {i : Instr} {s t : State} {T : Template} {r : Regs} {pc : Word}
    (h : (entryOf i).template = T) (ht : run T s = .next t) (hs : Settled s t r pc s.pollAnswer) : PollsBefore i s :=
  ⟨t, by rw [exec_eq_run, h, ht], hs.latch⟩

/-- Every instruction but RTI, BRK and JAM polls with the flags before it, on any bus: one case per template. -/
theorem pollsBefore (i : Instr) {s : State} (h0 : s.t = 0) (hrti : i.mnemonic ≠ .rti) (hbrk : i.mnemonic ≠ .brk)
    (hjam : i.mnemonic ≠ .jam) : PollsBefore i s :=
  match kind i with
  | .imp op h _ => have ⟨_, ht, hs, _⟩ := run_tImp op s h0; .of_run h ht hs
  | .imm op h _ _ => have ⟨_, ht, hs, _⟩ := run_tImm op s h0 rfl; .of_run h ht hs
  | .read m op h _ _ => have ⟨_, _, _, _, ht, hs, _⟩ := run_read m op h0; .of_run h ht hs
  | .write m op h _ _ => have ⟨_, _, _, _, ht, hs, _⟩ := run_write m op h0; .of_run h ht hs
  | .rmw m op h _ _ hi =>
    have ⟨_, _, _, _, _, ht, _, hs, _⟩ := run_rmw m op h0; .of_run h ht (pollAnswer_congr (hi ..) ▸ hs)
  | .unstableAbi ix r before h _ =>
    have ⟨_, ht, hs, _⟩ := run_tAbiW_unstable ix r before s h0 rfl rfl; .of_run h ht hs
  | .unstableIzy r before h _ =>
    have ⟨_, ht, hs, _⟩ := run_tIzyW_unstable r before s h0 rfl rfl rfl; .of_run h ht hs
  | .rel cond h _ => have ⟨_, ht, hs, _⟩ := run_tRel cond s h0 rfl; .of_run h ht hs
  | .push v h _ => have ⟨_, ht, hs, _⟩ := run_tPush v s h0; .of_run h ht hs
  | .pull op h _ => have ⟨_, ht, hs, _⟩ := run_tPull op s h0 rfl; .of_run h ht hs
  | .jmpAbs h _ => have ⟨_, ht, hs, _⟩ := run_tJmpAbs s h0 rfl rfl; .of_run h ht hs
  | .jmpInd h _ => have ⟨_, ht, hs, _⟩ := run_tJmpInd s h0 rfl rfl rfl rfl; .of_run h ht hs
  | .jsr h _ => have ⟨_, ht, hs, _⟩ := run_tJsr s h0 rfl rfl; .of_run h ht hs
  | .rts h _ => have ⟨_, ht, hs, _⟩ := run_tRts s h0 rfl rfl; .of_run h ht hs
  | .rti _ _ hm => absurd hm hrti
  | .brk _ _ hm => absurd hm hbrk
  | .jam _ _ hm => absurd hm hjam

/-- A JAM that has been fetched is not complete. -/
theorem ne_jam_of_done {i : Instr} {s t : State} (h0 : s.t = 0) (ht : exec i s = .next t) (hdone : t.t = 0) :
    i.mnemonic ≠ .jam := fun hm => by
  rw [exec_eq_run, (entry_halt i).mpr hm] at ht
  obtain rfl : beginFetch s = t := by injection (run_tJam s h0).symm.trans ht
  rw [beginFetch_t] at hdone
  exact absurd hdone (by decide)

/-- A completed instruction other than RTI and BRK has polled with the flags before it. -/
theorem exec_latch {i : Instr} {s t : State} (h0 : s.t = 0) (ht : exec i s = .next t) (hdone : t.t = 0)
    (hrti : i.mnemonic ≠ .rti) (hbrk : i.mnemonic ≠ .brk) : t.intRequested = s.pollAnswer := by
  obtain ⟨u, hu, hlatch⟩ := pollsBefore i h0 hrti hbrk (ne_jam_of_done h0 ht hdone)
  obtain rfl : u = t := by injection hu.symm.trans ht
  exact hlatch

/-- BRK's own poll finds nothing, and without `P_BRK_POLLS` BRK leaves the latch alone (60_exceptions R198). -/
theorem exec_brk_latch {i : Instr} {s t : State} (h0 : s.t = 0) (ht : exec i s = .next t) (hm : i.mnemonic = .brk) :
    t.intRequested = if s.params.brkPolls then false else s.intRequested := by
  obtain ⟨u, hu, hs, -⟩ := run_tBrk s h0 rfl rfl
  rw [exec_eq_run_meaning, hm] at ht
  obtain rfl : u = t := by injection hu.symm.trans ht
  exact hs.latch

/-- Settles O45: BRK never sets a clear latch, and every other instruction but RTI polls with the flags before it. -/
theorem maskedIrqIsNeverServed : Obligations.MaskedIrqIsNeverServed := by
  intro i s t h0 hclear ht hdone hrti
  have hlatch := exec_latch h0 ht hdone hrti
  refine ⟨fun hi hn => ?_, fun hbrk hn => ?_, fun hbrk hi hq => ?_⟩
  · by_cases hbrk : i.mnemonic = .brk
    · rw [exec_brk_latch h0 ht hbrk, hclear, ite_self]
    · rw [hlatch hbrk, pollAnswer_of_masked hn hi]
  · rw [hlatch hbrk, pollAnswer_of_nmi hn]
  · rw [hlatch hbrk, pollAnswer_of_irq hi hq]

/-! ## The interrupt entry -/

/-- Between instructions with the service latch set the step is the entry (40_sequencer R66). -/
theorem step_of_latched {s : State} (h0 : s.t = 0) (hr : s.intRequested = true) : step s = takeInterrupt s := by
  rw [step, if_pos h0, if_pos hr]

/-- A push leaves every byte past page 1 (20_memory R46). -/
theorem stored_stackAddr_past {s : State} {a : Word} (ha : 512 ≤ a.toNat) (mem : Word → Byte) (x v : Byte) :
    stored s mem (stackAddr x) v a = mem a :=
  stored_of_ne (ne_stackAddr ha x)

/-- Settles O30: the vector stands outside the stack page, so the three pushes leave it, and the entry loads the word
memory held there. -/
theorem hardwareInterruptEntry : Obligations.HardwareInterruptEntry := by
  intro s h0 hr hw vec top below third status mem hlo hhi
  have hmem {a : Word} (ha : 512 ≤ a.toNat) : mem a = s.peek a := by
    simp only [mem, top, below, third, stored_stackAddr_past ha]
  have hvec : 512 ≤ vec.toNat ∧ 512 ≤ (vec + 1).toNat := by
    cases hn : s.nmiPending <;> simp [vec, hn]
  obtain ⟨t, ht, hs, hn, hbus⟩ := takeInterrupt_of_boundary s h0 ((peek_after hw hlo _ _).trans (hmem hvec.1))
    ((peek_after hw hhi _ _).trans (hmem hvec.2))
  exact ⟨t, (step_of_latched h0 hr).trans ht, hs, hn, memIs_after hw hbus, hbus⟩

/-- Settles O32: the entry leaves the latch clear, and a line or a pending NMI changed after it is not polled before the
next sequence begins. -/
theorem handlersFirstInstructionRuns : Obligations.HandlersFirstInstructionRuns := by
  intro s h0 hr
  obtain ⟨t, ht, hs, -⟩ := takeInterrupt_of_boundary s h0 rfl rfl
  refine ⟨t, (step_of_latched h0 hr).trans ht, hs.done, hs.latch, ?_⟩
  intro l p u
  have hu0 : u.t = 0 := hs.done
  have huq : u.intRequested = false := hs.latch
  exact ⟨by rw [tick_of_boundary hu0, State.begun_of_fetch hu0 huq],
    by rw [step, if_pos hu0, huq, if_neg Bool.false_ne_true]⟩

/-! ## T_BRK cycle by cycle -/

/-- The software BRK and the interrupt entry run one template (40_sequencer R100). -/
theorem template_eq_tBrk {s : State} (h : s.synthetic = true ∨ s.opcode = 0x00) : s.template = tBrk := by
  rw [State.template]
  obtain h | h := h
  · rw [if_pos h]
  · rw [h]
    split <;> rfl

/-- Cycle 5 of T_BRK pushes the status and then selects the vector (60_exceptions R202). -/
theorem tick_tBrk_cycle5 {s : State} (hT : s.template = tBrk) (h4 : s.t = 4) :
    ∃ t, tick s = .next t ∧ t.t = 5 ∧ t.vector = (if s.nmiPending then 0xFFFA else 0xFFFE) ∧ t.nmiPending = false ∧
      t.regs = { s.regs with s := s.regs.s - 1 } ∧ t.pc = s.pc ∧ t.intRequested = s.intRequested ∧
      t.bus = s.bus.write 5 (stackAddr s.regs.s) (pack s.regs (!s.synthetic)) := by
  rw [tick_of_within (by rw [h4]; decide), hT]
  simp [cycle, tBrk, h4, Descr.run, push, LastMark.holds, PollRule.polls, State.decS, State.top, nmiVector, irqVector]

/-- Settles O31: both sequences run T_BRK. -/
theorem vectorIsSelectedAfterTheStatusPush : Obligations.VectorIsSelectedAfterTheStatusPush :=
  fun _ h4 h => tick_tBrk_cycle5 (template_eq_tBrk h) h4

/-- A cycle of T_BRK before the last goes on to the next. -/
theorem tick_tBrk_advances {s t : State} (hT : s.template = tBrk) (h0 : s.t ≠ 0) (hlt : s.t.val < 6)
    (h : tick s = .next t) : t.t.val = s.t.val + 1 := by
  rw [tick_of_within h0, hT] at h
  obtain ⟨hh, -⟩ | ⟨poll, ds, d, heq, hd, -, -, -, -, -, hgo⟩ := cycle_proper proper_tBrk h0 h
  · cases hh
  injection heq with _ hds
  subst hds
  have hlast : d.last = .never := by
    have hpos : 0 < s.t.val := Fin.pos_of_ne_zero h0
    generalize s.t.val = k at hd hlt hpos
    interval_cases k <;> cases hd <;> rfl
  exact (hgo (by rw [hlast]; rfl)).1

/-! ## The wait of a pending NMI -/

/-- A pending NMI is about to be served, or has been consumed, or a JAM has halted the core. -/
def NmiServed (s : State) : Prop := (s.t = 0 ∧ s.intRequested = true) ∨ s.nmiPending = false ∨ s.jammed

/-- Within at most `n` ticks a pending NMI is served. -/
def ServedWithin (n : Nat) (s : State) : Prop := ∃ k t, k ≤ n ∧ ticks k s = .next t ∧ NmiServed t

theorem NmiServed.within {s : State} (h : NmiServed s) (n : Nat) : ServedWithin n s := ⟨0, s, Nat.zero_le n, rfl, h⟩

theorem ServedWithin.mono {n m : Nat} {s : State} (h : ServedWithin n s) (hnm : n ≤ m) : ServedWithin m s := by
  obtain ⟨k, t, hk, ht⟩ := h
  exact ⟨k, t, hk.trans hnm, ht⟩

theorem ServedWithin.succ {n : Nat} {s u : State} (hu : tick s = .next u) (h : ServedWithin n u) :
    ServedWithin (n + 1) s := by
  obtain ⟨k, t, hk, ht, hserved⟩ := h
  exact ⟨k + 1, t, Nat.succ_le_succ hk, by rw [ticks_succ hu, ht], hserved⟩

/-- A template by when it polls (60_exceptions R198): only a branch and T_BRK can end without a poll, and the halt never
ends. -/
inductive PollCase (T : Template) : Prop where
  | halt (h : T = .halt)
  | atLast (h : T.pollRule = some .atLast)
  | branch (cond : BranchCond) (h : T = tRel cond)
  | brk (h : T = tBrk)

theorem entryOf_pollCase (i : Instr) : PollCase (entryOf i).template := by
  cases kind i with
  | jam h => exact .halt h
  | rel cond h => exact .branch cond h
  | brk h => exact .brk h
  | read m _ h => rw [h]; cases m <;> exact .atLast rfl
  | write m _ h => rw [h]; cases m <;> exact .atLast rfl
  | rmw m _ h => rw [h]; cases m <;> exact .atLast rfl
  | _ => have h := ‹(entryOf i).template = _›; rw [h]; exact .atLast rfl

theorem template_pollCase (s : State) : PollCase s.template := by
  rw [State.template]
  split
  · exact .brk rfl
  · exact entryOf_pollCase _

/-- The sequence will serve a pending NMI by its end: its poll is still to come, or a branch has made it, or T_BRK has
not selected its vector yet. -/
inductive NmiDue (s : State) : Prop where
  | atLast (hT : s.template.pollRule = some .atLast)
  | branch (cond : BranchCond) (hT : s.template = tRel cond) (hpoll : s.t = 1 ∨ s.intRequested = true)
  | vector (hT : s.template = tBrk) (hle : s.t.val ≤ 4)

theorem NmiDue.template_ne_halt {s : State} (hd : NmiDue s) : s.template ≠ .halt := by
  intro hh
  cases hd with
  | atLast hT => rw [hh] at hT; cases hT
  | branch cond hT => cases hh.symm.trans hT
  | vector hT => cases hh.symm.trans hT

/-- A tick of a sequence that is not the halt goes on to the next cycle, unless it was the last. -/
theorem tick_advances {s t : State} (h0 : s.t ≠ 0) (hT : s.template ≠ .halt) (h : tick s = .next t) :
    t.t = 0 ∨ t.t.val = s.t.val + 1 := by
  rw [tick_of_within h0] at h
  obtain ⟨hh, -⟩ | ⟨poll, ds, d, -, -, -, -, -, -, hend, hgo⟩ := cycle_proper (template_proper s) h0 h
  · exact absurd hh hT
  · cases hl : d.last.holds s
    · exact .inr (hgo hl).1
    · exact .inl (hend hl)

/-- A tick within a sequence keeps the active template. -/
theorem tick_template {s t : State} (h0 : s.t ≠ 0) (h : tick s = .next t) : t.template = s.template := by
  rw [tick_of_within h0] at h
  exact (cycle_kept (template_proper s) h0 h).template

/-- A tick keeps an NMI due, or serves it. -/
theorem NmiDue.after_tick {s t : State} (hd : NmiDue s) (h0 : s.t ≠ 0) (hn : s.nmiPending = true)
    (h : tick s = .next t) : NmiServed t ∨ t.t ≠ 0 ∧ NmiDue t := by
  have hk := tick_template h0 h
  have hlatch := tick_latch h0 h
  rw [pollAnswer_of_nmi hn] at hlatch
  cases hd with
  | atLast hT =>
    by_cases ht0 : t.t = 0
    · exact .inl (.inl ⟨ht0, by simp [hlatch, hT, PollRule.polls, ht0]⟩)
    · exact .inr ⟨ht0, .atLast (by rw [hk, hT])⟩
  | branch cond hT hpoll =>
    have ht : t.intRequested = true := by
      rw [hlatch, hT]
      obtain h1 | hq := hpoll
      · simp [tRel, Template.pollRule, PollRule.polls, h1]
      · rw [hq, ite_self]
    by_cases ht0 : t.t = 0
    · exact .inl (.inl ⟨ht0, ht⟩)
    · exact .inr ⟨ht0, .branch cond (hk.trans hT) (.inr ht)⟩
  | vector hT hle =>
    by_cases h4 : s.t = 4
    · obtain ⟨u, hu, -, -, hserved, -⟩ := tick_tBrk_cycle5 hT h4
      obtain rfl : u = t := by injection hu.symm.trans h
      exact .inl (.inr (.inl hserved))
    · have ht := tick_tBrk_advances hT h0 (by omega) h
      exact .inr ⟨fun h => by simp [h] at ht, .vector (hk.trans hT) (by omega)⟩

/-- A pending NMI is served, or is pending still. -/
theorem nmiServed_or_pending (s : State) : NmiServed s ∨ s.nmiPending = true := by
  cases hn : s.nmiPending
  · exact .inl (.inr (.inl hn))
  · exact .inr rfl

/-- An NMI that is due is served before the sequence's eight cycles are over. -/
theorem NmiDue.served (n : Nat) : ∀ {s : State}, NmiDue s → s.t ≠ 0 → Invariant s → s.nmiPending = true →
    8 ≤ s.t.val + n → ServedWithin n s := by
  induction n with
  | zero => intro s _ _ _ _ hle; have := s.t.isLt; omega
  | succ n ih =>
    intro s hd h0 hi hn hle
    obtain ⟨t, ht, hit⟩ := tick_keeps_invariant hi
    refine .succ ht ?_
    obtain hserved | ⟨ht0, hdt⟩ := hd.after_tick h0 hn ht
    · exact hserved.within n
    obtain hserved | hnt := nmiServed_or_pending t
    · exact hserved.within n
    · have hadv := (tick_advances h0 hd.template_ne_halt ht).resolve_left ht0
      exact ih hdt ht0 hit hnt (by omega)

/-- Cycle 1 of an instruction leaves a pending NMI due, unless the instruction is a JAM. -/
theorem nmiDue_or_jammed_of_first {s : State} (h1 : s.t = 1) : NmiDue s ∨ s.jammed := by
  cases template_pollCase s with
  | halt hT => exact .inr (State.jammed_of_halt (by rw [h1]; decide) hT)
  | atLast hT => exact .inl (.atLast hT)
  | branch cond hT => exact .inl (.branch cond hT (.inl h1))
  | brk hT => exact .inl (.vector hT (by rw [h1]; decide))

/-- Between instructions a pending NMI is served within eight ticks, the cycles of the longest instruction. -/
theorem served_of_boundary {s : State} (hi : Invariant s) (hn : s.nmiPending = true) (h0 : s.t = 0) :
    ServedWithin 8 s := by
  cases hr : s.intRequested
  · refine .succ (tick_of_boundary h0) ?_
    have hnb : s.begun.nmiPending = true := by rw [State.begun_of_fetch h0 hr]; exact hn
    have h1 := State.begun_t_of_boundary h0
    obtain hd | hj := nmiDue_or_jammed_of_first h1
    · exact hd.served 7 s.begun_t_ne_zero hi.begun hnb (by rw [h1]; decide)
    · exact NmiServed.within (.inr (.inr hj)) 7
  · exact NmiServed.within (.inl ⟨h0, hr⟩) 8

/-- A sequence with at most `n` cycles to come adds at most `n` ticks to the wait. -/
theorem served_of_late (n : Nat) : ∀ {s : State}, Invariant s → s.nmiPending = true → s.t ≠ 0 → s.template ≠ .halt →
    (∀ k, s.template.hasCycle k = true → k < s.t.val + n) → ServedWithin (n + 8) s := by
  induction n with
  | zero =>
    intro s hi _ h0 _ hlate
    exact absurd (hlate _ (hi.cycle.resolve_left h0)) (Nat.lt_irrefl _)
  | succ n ih =>
    intro s hi hn h0 hT hlate
    obtain ⟨t, ht, hit⟩ := tick_keeps_invariant hi
    rw [Nat.add_right_comm]
    refine .succ ht ?_
    obtain hserved | hnt := nmiServed_or_pending t
    · exact hserved.within _
    by_cases ht0 : t.t = 0
    · exact (served_of_boundary hit hnt ht0).mono (Nat.le_add_left 8 n)
    · have hadv := (tick_advances h0 hT ht).resolve_left ht0
      have hk := tick_template h0 ht
      exact ih hit hnt ht0 (by rwa [hk]) fun k hc => by
        have := hlate k (by rwa [← hk])
        omega

/-- Settles O59: an NMI that is due is served by the end of its sequence, within seven ticks; a branch past its poll and
T_BRK past its vector have two cycles to come at most, and then there are eight for the next instruction. -/
theorem nmiIsServedWithinTenTicks : Obligations.NmiIsServedWithinTenTicks := by
  intro s hi hn
  show ServedWithin 10 s
  by_cases h0 : s.t = 0
  · exact (served_of_boundary hi hn h0).mono (by decide)
  have hpos : 0 < s.t.val := Fin.pos_of_ne_zero h0
  have served (hd : NmiDue s) : ServedWithin 10 s := (hd.served 7 h0 hi hn (by omega)).mono (by decide)
  cases template_pollCase s with
  | halt hT => exact NmiServed.within (.inr (.inr (State.jammed_of_halt h0 hT))) 10
  | atLast hT => exact served (.atLast hT)
  | branch cond hT =>
    by_cases h1 : s.t.val = 1
    · exact served (.branch cond hT (.inl (Fin.ext h1)))
    · refine served_of_late 2 hi hn h0 (by rw [hT]; exact Template.noConfusion) fun k hk => ?_
      have hle : 1 ≤ k ∧ k ≤ 3 := by simpa [hT, tRel, Template.hasCycle] using hk
      omega
  | brk hT =>
    by_cases h4 : s.t.val ≤ 4
    · exact served (.vector hT h4)
    · refine served_of_late 2 hi hn h0 (by rw [hT]; exact Template.noConfusion) fun k hk => ?_
      have hle : 1 ≤ k ∧ k ≤ 6 := by simpa [hT, tBrk, Template.hasCycle] using hk
      omega

end Sys2Proof.Machine

/-! PROOFS of the family 70_reset_and_hazards: the delay of CLI, SEI and PLP (O47), its absence in RTI (O48), and the
reset entry point (O49). -/

namespace Sys2Proof.Machine

open Sys2Proof

/-! ## The delay of I -/

/-- The first four cycles of an entry leave the status push for the fifth, with I as it was before the entry
(60_exceptions R201). -/
theorem ticks_four_of_latched {s : State} (h0 : s.t = 0) (hr : s.intRequested = true) :
    ∃ u, ticks 4 s = .next u ∧ u.t = 4 ∧ u.synthetic = true ∧ u.regs.i = s.regs.i := by
  rw [ticks_succ (tick_of_boundary h0), State.begun_of_entry h0 hr]
  exact ⟨_, rfl, rfl, rfl, rfl⟩

/-- The entry's status push: cycle 5 writes a byte whose bit 2 is the I of before the entry (10_state R22). -/
theorem entry_pushes_i {s : State} (h0 : s.t = 0) (hr : s.intRequested = true) :
    ∃ u v k w, ticks 4 s = .next u ∧ tick u = .next v ∧
      v.bus.trace = { cycle := 5, kind := .write, addr := k, value := w } :: u.bus.trace ∧ w.getLsbD 2 = s.regs.i := by
  obtain ⟨u, hu, h4, hsyn, hi⟩ := ticks_four_of_latched h0 hr
  obtain ⟨v, hv, -, -, -, -, -, -, hbus⟩ := tick_tBrk_cycle5 (template_eq_tBrk (.inl hsyn)) h4
  obtain ⟨-, -, -, -, -, h2, -⟩ := pack_bits u.regs (!u.synthetic)
  exact ⟨u, v, _, _, hu, hv, by rw [hbus, Bus.write_trace], h2.trans hi⟩

/-- Settles O47: each of the three polls with the I before it; the instruction after CLI polls with the I that CLI
cleared, and the entry after SEI pushes the I that SEI set. -/
theorem cliSeiPlpTakeEffectOneInstructionLate : Obligations.CliSeiPlpTakeEffectOneInstructionLate := by
  intro s h0 hn hq
  refine ⟨fun hi => ?_, fun hi => ?_, ?_⟩
  · obtain ⟨t, ht, hs, -⟩ := completes_of_meaning_implied (i := .cli) (op := opCli) rfl rfl h0
    have hti : t.regs.i = false := by rw [hs.regs]; rfl
    have htq : t.irqAsserted ≠ [] := by rwa [hs.sources]
    refine ⟨t, ht, hs.done, hti, hs.latch.trans (pollAnswer_of_masked hn hi), fun j hrti hbrk hjam => ?_⟩
    obtain ⟨u, hu, hlatch⟩ := pollsBefore j hs.done hrti hbrk hjam
    exact ⟨u, hu, hlatch.trans (pollAnswer_of_irq hti htq)⟩
  · obtain ⟨t, ht, hs, -⟩ := completes_of_meaning_implied (i := .sei) (op := opSei) rfl rfl h0
    have hti : t.regs.i = true := by rw [hs.regs]; rfl
    have htr : t.intRequested = true := hs.latch.trans (pollAnswer_of_irq hi hq)
    obtain ⟨u, v, k, w, hu, hv, htrace, hw⟩ := entry_pushes_i hs.done htr
    exact ⟨t, u, v, k, w, ht, hs.done, hti, htr, hu, hv, htrace, hw.trans hti⟩
  · obtain ⟨t, ht, hs, -⟩ := run_tPull opPlp s h0 rfl
    refine ⟨t, ht, hs.done, hs.latch.trans ?_⟩
    cases hi : s.regs.i
    · exact pollAnswer_of_irq hi hq
    · exact pollAnswer_of_masked hn hi

/-- Settles O48: RTI polls with the I it pulled, so the latch is set and the next sequence is the entry. -/
theorem rtiAllowsAnIrqAtOnce : Obligations.RtiAllowsAnIrqAtOnce := by
  intro s h0 hq hp hbit
  obtain ⟨t, ht, hs, -⟩ := run_tRti s h0 (peek_after_reads hp _ _ rfl) rfl rfl
  have hlatch : t.intRequested = true := hs.latch.trans (pollAnswer_of_irq hbit hq)
  refine ⟨t, ht, hs.done, by rw [hs.regs]; exact hbit, hlatch, step_of_latched hs.done hlatch, ?_⟩
  rw [tick_of_boundary hs.done, State.begun_of_entry hs.done hlatch]

/-! ## Reset -/

/-- PC after the reset entry point is the word at 0xFFFC: its first read changes no plain byte (70_reset R216). -/
theorem resetEntry_pc_plain {s : State} (h : s.PlainAt 0xFFFD) :
    s.resetEntry.pc = mkWord (s.peek 0xFFFD) (s.peek 0xFFFC) :=
  congrArg (mkWord · _) (Bus.answer_read h 0 resetVector)

/-- Settles O49: every field but PC is what the entry point writes out, and with the latch clear at `t = 0` the next
tick is an opcode fetch. -/
theorem resetEntryFromAnyState : Obligations.ResetEntryFromAnyState := by
  intro s _ hhi
  refine ⟨s.resetEntry, rfl, resetEntry_pc_plain hhi, rfl, rfl, rfl, rfl, rfl, rfl, rfl, rfl, rfl, rfl, rfl, rfl, rfl,
    rfl, rfl, rfl, rfl, rfl, ?_⟩
  have h0 := State.resetEntry_t s
  rw [tick_of_boundary h0, State.begun_of_fetch h0 (State.resetEntry_intRequested s)]

end Sys2Proof.Machine
